-- ==== Sys2Proof/Word.lean ====
section
/-! DEFINITION. The word types of the LW6400: a word is 16 bits, an element 32 bits, an internal address 36 bits and counts words (R3, R5). -/
namespace Sys2Proof

/-- A byte: host-side addresses, packets and Kwavis messages count bytes (R5). -/
abbrev Byte := BitVec 8
/-- A word is 16 bits (R3). -/
abbrev Word := BitVec 16
/-- An element is 32 bits (R3). -/
abbrev Elem := BitVec 32
/-- An internal address: 36 bits, counting words (R5). -/
abbrev Addr := BitVec 36

end Sys2Proof
end

