-- ==== Sys2Proof/Syntax.lean ====
section
/-! DEFINITION. The commands of the LW6400: one constructor of Instr for each row of the operation table, with the row's operands. -/
namespace Sys2Proof

/-- A core: 0 to 16 are CC00 to CC16, 17 is the always-on core (AOC, R229). -/
abbrev CoreId := Fin 18
abbrev PortId := Fin 64
abbrev CourseId := Fin 8
abbrev QueueId := Fin 16
abbrev RingId := Fin 16
abbrev PipeId := Fin 34

/-- The conditions of Table 7.7. A short form can name only `al`, `z`, `nz` and `t`. -/
inductive Cond where
  | al | z | nz | c | nc | n | nn | v | nv | t | nt | d | lt | ge | hi
  deriving DecidableEq, Repr

/-- Who writes a register and how the write arrives: a core's STR or STRX, or a host BAR0 write of `ndw` DWs with byte enables `be` at a BAR0 byte offset (R366, R367). -/
inductive RegWrite where
  | core (c : CoreId) (blk : Fin 13) (off : Word) (v : Word)
  | host (byteOff : BitVec 22) (ndw : Nat) (be : BitVec 4) (v : BitVec 32)
  deriving DecidableEq, Repr

/-- Kinds of PCIe reset (R364, R458). -/
inductive PcieResetKind where
  | flr | hot | perst | linkLoss
  deriving DecidableEq, Repr

/-- What a slate's bridge delivers when its record is read (R306 to R312): header, certificate, waveform set, underlay, the two life copies, LLINE, and the random challenge's outcome comes by READ_DATA. -/
structure SlateData where
  header   : List Byte
  cert     : List Byte
  set      : List Word
  underlay : List Byte
  lifeA    : List Byte
  lifeB    : List Byte
  lline    : Word
  deriving DecidableEq, Repr

/-- A defect that a scrubber or an access meets (R41, R48): the word address, and whether it was corrected. -/
structure MemError where
  addr      : Addr
  corrected : Bool
  deriving DecidableEq, Repr

/-- Why a VIN-fail is raised (R338, R453). -/
inductive VinSource where
  | vin | pfail | mainPg
  deriving DecidableEq, Repr

/-- A wake source of Table 12.4, by its bit. -/
abbrev WakeBit := Fin 8

/-- Whom the end of a waymark names (R403, R404): of WM14 to WM17 the port that ends it, or none for every port that runs it; and the units that fail, which are skipped. -/
structure WmUnits where
  port   : Option PortId
  failed : List Nat
  deriving DecidableEq, Repr

/-- One command: one constructor for each row of the table. -/
inductive Instr where
  | registerWrite (w : RegWrite)
  | descriptorWrite (c : CoreId) (d : Fin 4096) (w : Fin 8) (v : Word)
  | vissue (c : CoreId) (cond : Cond) (q : QueueId)
  | vissuex (c : CoreId) (cond : Cond) (q : QueueId) (n : Fin 8) (step : Bool)
  | vpoll (c : CoreId) (cond : Cond) (q : QueueId)
  | vfence (c : CoreId) (cond : Cond) (q : QueueId)
  | commandFetch (q : QueueId)
  | segmentRun (p : PipeId)
  | waveCommit (q : QueueId)
  | commandComplete (q : QueueId)
  | queueFlush (q : QueueId)
  | queueRestart (q : QueueId)
  | queuePause (q : QueueId) (on : Bool)
  | pipeError (p : PipeId)
  | pipeBuiltinTestDone (p : PipeId) (pass : Bool)
  | frameTableBuilt (b : Fin 2)
  | temperatureReadingStale (p : PortId)
  | update (r : RingId) (cid : Word)
  | admitWaitingRequest (r : RingId)
  | cancel (r : RingId) (cid : Word)
  | hold (r : RingId) (cid : Word)
  | resume (r : RingId) (cid : Word)
  | targetDurable (rid : Nat)
  | spliceWritesDurable (rid : Nat)
  | closeWriteDurable (rid : Nat)
  | planningPoint (co : CourseId)
  | spanStarved (rid : Nat)
  | courseFrameStart (co : CourseId)
  | courseFrameReconcile (co : CourseId) (railUj : Option Nat) (driveUj : Nat) (heatUj : Nat)
  | writeBackCommitted (rid : Nat)
  | bucketRefill
  | tollAudit
  | heatRateLower
  | heatRateRaise
  | lostLinkTimeout (p : PortId)
  | vinFail (src : VinSource) (vin : BitVec 9)
  | vinFailCreditWaitEnd
  | journalSlotDurable
  | holdUpEnd (vinBack : Bool)
  | stateStoreWriteDone (ch : Fin 4) (ok : Bool)
  | hbmPatrol (found : List MemError)
  | vsScrub (found : List MemError)
  | migrationDone (unreadable : List Addr)
  | spareBankCopyDone
  | coreRelease (c : CoreId) (role : Fin 16)
  | interruptTaken (c : CoreId)
  | farLoadData (c : CoreId) (refused : Bool)
  | postedStorePerformed (c : CoreId)
  | lateBusError (c : CoreId) (store ring poisoned refused : Bool) (addr : Addr)
  | timerCompareMatch (c : CoreId) (n : Fin 2)
  | decodeEntryWrite (c : CoreId) (k : Fin 16) (w1 : Word)
  | microcodeStepWrite (c : CoreId) (v : Word)
  | customerInstruction (c : CoreId) (cond : Cond) (k : Fin 16) (imm : Word)
  | illegalInstruction (c : CoreId) (w0 w1 : Word)
  | nop (c : CoreId) (cond : Cond)
  | dup (c : CoreId) (cond : Cond)
  | drop (c : CoreId) (cond : Cond)
  | swap (c : CoreId) (cond : Cond)
  | over (c : CoreId) (cond : Cond)
  | rot (c : CoreId) (cond : Cond)
  | nip (c : CoreId) (cond : Cond)
  | tuck (c : CoreId) (cond : Cond)
  | dup2 (c : CoreId) (cond : Cond)
  | drop2 (c : CoreId) (cond : Cond)
  | swap2 (c : CoreId) (cond : Cond)
  | over2 (c : CoreId) (cond : Cond)
  | pick (c : CoreId) (cond : Cond) (k : Fin 16)
  | toa (c : CoreId) (cond : Cond) (n : Fin 8)
  | froma (c : CoreId) (cond : Cond) (n : Fin 8)
  | psh (c : CoreId) (cond : Cond) (v : Byte)
  | ldh (c : CoreId) (cond : Cond) (v : Byte)
  | pshw (c : CoreId) (cond : Cond) (imm : Word)
  | add (c : CoreId) (cond : Cond) (w : Bool)
  | adc (c : CoreId) (cond : Cond) (w : Bool)
  | sub (c : CoreId) (cond : Cond) (w : Bool)
  | sbc (c : CoreId) (cond : Cond) (w : Bool)
  | cmp (c : CoreId) (cond : Cond) (w : Bool)
  | neg (c : CoreId) (cond : Cond) (w : Bool)
  | inc (c : CoreId) (cond : Cond) (w : Bool)
  | dcr (c : CoreId) (cond : Cond) (w : Bool)
  | and (c : CoreId) (cond : Cond) (w : Bool)
  | or (c : CoreId) (cond : Cond) (w : Bool)
  | xor (c : CoreId) (cond : Cond) (w : Bool)
  | andn (c : CoreId) (cond : Cond) (w : Bool)
  | not (c : CoreId) (cond : Cond) (w : Bool)
  | tst (c : CoreId) (cond : Cond) (w : Bool)
  | mins (c : CoreId) (cond : Cond) (w : Bool)
  | maxs (c : CoreId) (cond : Cond) (w : Bool)
  | minu (c : CoreId) (cond : Cond) (w : Bool)
  | maxu (c : CoreId) (cond : Cond) (w : Bool)
  | abs (c : CoreId) (cond : Cond) (w : Bool)
  | exts (c : CoreId) (cond : Cond)
  | extz (c : CoreId) (cond : Cond)
  | aluiAdd (c : CoreId) (cond : Cond) (w : Bool) (imm : Word)
  | aluiAdc (c : CoreId) (cond : Cond) (w : Bool) (imm : Word)
  | aluiSub (c : CoreId) (cond : Cond) (w : Bool) (imm : Word)
  | aluiSbc (c : CoreId) (cond : Cond) (w : Bool) (imm : Word)
  | aluiCmp (c : CoreId) (cond : Cond) (w : Bool) (imm : Word)
  | aluiAnd (c : CoreId) (cond : Cond) (w : Bool) (imm : Word)
  | aluiOr (c : CoreId) (cond : Cond) (w : Bool) (imm : Word)
  | aluiXor (c : CoreId) (cond : Cond) (w : Bool) (imm : Word)
  | shl (c : CoreId) (cond : Cond) (n : Fin 32)
  | shr (c : CoreId) (cond : Cond) (n : Fin 32)
  | sar (c : CoreId) (cond : Cond) (n : Fin 32)
  | rol (c : CoreId) (cond : Cond) (n : Fin 32)
  | shlD (c : CoreId) (cond : Cond) (n : Fin 32)
  | shrD (c : CoreId) (cond : Cond) (n : Fin 32)
  | sarD (c : CoreId) (cond : Cond) (n : Fin 32)
  | rolD (c : CoreId) (cond : Cond) (n : Fin 32)
  | mul (c : CoreId) (cond : Cond)
  | muls (c : CoreId) (cond : Cond)
  | mul32 (c : CoreId) (cond : Cond)
  | div (c : CoreId) (cond : Cond)
  | divs (c : CoreId) (cond : Cond)
  | rem (c : CoreId) (cond : Cond)
  | dadd (c : CoreId) (cond : Cond) (w : Bool)
  | dadc (c : CoreId) (cond : Cond) (w : Bool)
  | dsub (c : CoreId) (cond : Cond) (w : Bool)
  | dsbc (c : CoreId) (cond : Cond) (w : Bool)
  | dneg (c : CoreId) (cond : Cond) (w : Bool)
  | dcmp (c : CoreId) (cond : Cond) (w : Bool)
  | cvtbd (c : CoreId) (cond : Cond) (w : Bool)
  | cvtdb (c : CoreId) (cond : Cond) (w : Bool)
  | btst (c : CoreId) (cond : Cond) (n : Fin 16)
  | bset (c : CoreId) (cond : Cond) (n : Fin 16)
  | bclr (c : CoreId) (cond : Cond) (n : Fin 16)
  | binv (c : CoreId) (cond : Cond) (n : Fin 16)
  | brev (c : CoreId) (cond : Cond) (n : Fin 16)
  | popc (c : CoreId) (cond : Cond)
  | clz (c : CoreId) (cond : Cond)
  | par (c : CoreId) (cond : Cond)
  | pard (c : CoreId) (cond : Cond)
  | crc8 (c : CoreId) (cond : Cond)
  | crc16 (c : CoreId) (cond : Cond)
  | crc32 (c : CoreId) (cond : Cond)
  | crci (c : CoreId) (cond : Cond) (n : Fin 16) (imm : Word)
  | ld (c : CoreId) (cond : Cond) (n : Fin 8) (p : Bool) (off : BitVec 4)
  | st (c : CoreId) (cond : Cond) (n : Fin 8) (p : Bool) (off : BitVec 4)
  | ldd (c : CoreId) (cond : Cond) (n : Fin 8) (p : Bool) (off : BitVec 3)
  | std (c : CoreId) (cond : Cond) (n : Fin 8) (p : Bool) (off : BitVec 3)
  | argLoad (c : CoreId) (cond : Cond) (k : BitVec 7)
  | argStore (c : CoreId) (cond : Cond) (k : BitVec 7)
  | ldx (c : CoreId) (cond : Cond) (n : Fin 8) (p : Bool) (off : Word)
  | stx (c : CoreId) (cond : Cond) (n : Fin 8) (p : Bool) (off : Word)
  | lddx (c : CoreId) (cond : Cond) (n : Fin 8) (p : Bool) (off : Word)
  | stdx (c : CoreId) (cond : Cond) (n : Fin 8) (p : Bool) (off : Word)
  | adda (c : CoreId) (cond : Cond) (n : Fin 8) (imm : Word)
  | setam (c : CoreId) (cond : Cond) (n : Fin 8) (imm : Word)
  | br (c : CoreId) (cond : Cond) (off : Byte)
  | dbnz (c : CoreId) (cond : Cond) (off : Byte)
  | brl (c : CoreId) (cond : Cond) (imm : Word)
  | dbnzl (c : CoreId) (cond : Cond) (imm : Word)
  | jmpa (c : CoreId) (cond : Cond) (imm : Word)
  | rep (c : CoreId) (cond : Cond) (n : Byte)
  | repl (c : CoreId) (cond : Cond) (imm : Word)
  | call (c : CoreId) (cond : Cond) (m : BitVec 4) (imm : Word)
  | calla (c : CoreId) (cond : Cond) (m : BitVec 4) (imm : Word)
  | ret (c : CoreId) (cond : Cond) (m : BitVec 4)
  | callg (c : CoreId) (cond : Cond) (imm : Word)
  | retx (c : CoreId) (cond : Cond)
  | trap (c : CoreId) (cond : Cond) (n : Fin 16)
  | trapl (c : CoreId) (cond : Cond) (imm : Word)
  | synci (c : CoreId) (cond : Cond)
  | wait (c : CoreId) (cond : Cond)
  | cli (c : CoreId) (cond : Cond)
  | sti (c : CoreId) (cond : Cond)
  | halt (c : CoreId) (cond : Cond)
  | mtc (c : CoreId) (cond : Cond) (imm : Word)
  | mfc (c : CoreId) (cond : Cond) (imm : Word)
  | fadd (c : CoreId) (cond : Cond) (s : Bool)
  | fsub (c : CoreId) (cond : Cond) (s : Bool)
  | fmul (c : CoreId) (cond : Cond) (s : Bool)
  | fdiv (c : CoreId) (cond : Cond) (s : Bool)
  | fsqrt (c : CoreId) (cond : Cond)
  | fma (c : CoreId) (cond : Cond)
  | fmin (c : CoreId) (cond : Cond) (s : Bool)
  | fmax (c : CoreId) (cond : Cond) (s : Bool)
  | fabs (c : CoreId) (cond : Cond) (s : Bool)
  | fneg (c : CoreId) (cond : Cond) (s : Bool)
  | fcmp (c : CoreId) (cond : Cond) (s : Bool)
  | cvtSH (c : CoreId) (cond : Cond)
  | cvtHS (c : CoreId) (cond : Cond)
  | cvtSW (c : CoreId) (cond : Cond)
  | cvtWS (c : CoreId) (cond : Cond)
  | cvtSI (c : CoreId) (cond : Cond)
  | cvtIS (c : CoreId) (cond : Cond)
  | cvtHW (c : CoreId) (cond : Cond)
  | cvtWH (c : CoreId) (cond : Cond)
  | fbar (c : CoreId) (cond : Cond)
  | fpiAdd (c : CoreId) (cond : Cond) (s : Bool) (imm : Word)
  | fpiSub (c : CoreId) (cond : Cond) (s : Bool) (imm : Word)
  | fpiMul (c : CoreId) (cond : Cond) (s : Bool) (imm : Word)
  | fpiCmp (c : CoreId) (cond : Cond) (s : Bool) (imm : Word)
  | fpiMin (c : CoreId) (cond : Cond) (s : Bool) (imm : Word)
  | fpiMax (c : CoreId) (cond : Cond) (s : Bool) (imm : Word)
  | ldr (c : CoreId) (cond : Cond) (b : BitVec 4)
  | str (c : CoreId) (cond : Cond) (b : BitVec 4)
  | ldrx (c : CoreId) (cond : Cond) (b : BitVec 4) (off : Word)
  | strx (c : CoreId) (cond : Cond) (b : BitVec 4) (off : Word)
  | streamPacketSend (p : PortId)
  | credit (p : PortId) (acked done limit : Word)
  | eventNak (p : PortId) (arg : Word)
  | eventProtocolError (p : PortId) (sseq : Word)
  | eventOverrun (p : PortId) (sseq : Word)
  | eventDriverFault (p : PortId) (line : Word)
  | status (p : PortId) (temp stretch : Word) (sftag flags lerr0 lerr1 : Byte) (sinceMs : Nat)
  | readData (p : PortId) (tag : BitVec 4) (rstat : Byte) (data : List Byte)
  | idleSetsReceived (p : PortId)
  | pong (p : PortId) (lock0 lock1 : Bool) (ptag buf bootcnt version : Byte) (rttNs : Word)
  | pingTimer (p : PortId)
  | configTimeout (p : PortId)
  | retrainTimeout (p : PortId)
  | symbolLockLost (p : PortId)
  | replayTimeout (p : PortId)
  | creditTimeout (p : PortId)
  | transactionRetry (p : PortId) (tag : BitVec 4)
  | transactionBusyRetry (p : PortId) (tag : BitVec 4)
  | portRetrain (p : PortId)
  | lifeWriteNow (p : PortId)
  | lifeWritePeriod
  | lightSecond
  | slateAttach (p : PortId) (d : SlateData)
  | authPoll (p : PortId) (flag : Byte) (sig : List Byte)
  | coursePowerOn (co : CourseId)
  | coursePowerOff (co : CourseId)
  | powerOnStart (co : CourseId)
  | railPowerGood (co : CourseId) (rail : Fin 9)
  | powerOnStepTimeout (co : CourseId)
  | powerOffStart (co : CourseId)
  | railFault (co : CourseId) (cause : BitVec 4) (rail : Fin 9)
  | faultRetry (co : CourseId)
  | idleoffTimeout (co : CourseId)
  | loopMeasurement (readings : List Nat)
  | loopcrackClear (p : PortId)
  | loopmaskWrite (p : PortId) (on : Bool)
  | frontLightEnable (co : CourseId)
  | frontLightPwmStart (co : CourseId)
  | frontLightDisable (co : CourseId)
  | power (r : RingId) (cid : Word)
  | idleEntry
  | dozeAutoTimer
  | dozeEntry
  | dozeExit (src : WakeBit)
  | sleepEntry
  | wakeFromSleep (src : WakeBit)
  | wakeTimerExpiry (n : Fin 2)
  | calendarSecond
  | calendarWrite (w0 w1 w2 w3 : Word)
  | crystalCheck (running : Bool)
  | keyScan (matrix : BitVec 64)
  | keyfifoRead (c : CoreId)
  | analogSample (c0 c1 c2 c3 : BitVec 10)
  | vinRestored (vin : BitVec 9)
  | thermalSample (temps : List Word) (hbm0 hbm1 : Word) (railTemp : Word)
  | heatRateUpdate
  | orderlyStopDeadline
  | coolDownExpiry
  | clockIdleStop (clk : Fin 3)
  | vstbyValid (straps : BitVec 2)
  | vstbyRemoved
  | sqTailDoorbell (r : RingId) (tail : BitVec 12)
  | cqHeadDoorbell (r : RingId) (head : BitVec 12)
  | ringEnable (r : RingId)
  | ringDisable (r : RingId)
  | submissionEntryTake (r : RingId) (entry : Option (List Byte))
  | cqCoalesceTimer (r : RingId)
  | pcieReset (kind : PcieResetKind)
  | bar2Write (off : BitVec 36) (data : List (Option Byte))
  | bar2Read (off : BitVec 36) (len : Nat)
  | dmaChunkDone (m : Fin 8) (hostErr : Bool) (data : List Byte)
  | nopCommand (r : RingId) (cid : Word)
  | fence (r : RingId) (cid : Word)
  | load (r : RingId) (cid : Word)
  | store (r : RingId) (cid : Word)
  | render (r : RingId) (cid : Word)
  | modeLoad (r : RingId) (cid : Word) (hostErr : Bool) (data : List Byte)
  | overlaySet (r : RingId) (cid : Word) (hostErr : Bool) (data : List Byte)
  | vector (r : RingId) (cid : Word)
  | vectorPushRetry (r : RingId) (cid : Word)
  | query (r : RingId) (cid : Word) (hostErr : Bool)
  | life (r : RingId) (cid : Word) (hostErr : Bool)
  | planStage (r : RingId) (cid : Word) (hostErr : Bool) (data : List Byte)
  | planSwap (r : RingId) (cid : Word)
  | swapPoint
  | smbusPacket (src : Byte) (som eom : Bool) (seq : BitVec 2) (tag : BitVec 3) (pecOk countOk hdrOk : Bool) (bytes : List Byte)
  | messageReassemblyTimeout (src : Byte) (tag : BitVec 3)
  | alertResponseAddressRead (won : Bool)
  | setEndpointId (src : Byte) (op : BitVec 2) (eid : Byte)
  | getEndpointId (src : Byte)
  | getEndpointUuid (src : Byte)
  | getMctpVersionSupport (src : Byte) (msgType : Byte)
  | getMessageTypeSupport (src : Byte)
  | getVendorDefinedMessageSupport (src : Byte) (selector : Byte)
  | health (src : Byte)
  | events (src : Byte)
  | waymarks (src : Byte)
  | kwavisLife (src : Byte)
  | powerSet (src : Byte)
  | blank (src : Byte)
  | railsOff (src : Byte)
  | kwavisReset (src : Byte)
  | fwStage (src : Byte)
  | fwCommit (src : Byte)
  | keys (src : Byte)
  | sensors (src : Byte)
  | resetNAsserted
  | resetNReleased
  | sysRstWarm (c : CoreId)
  | sysRstCold (c : CoreId)
  | mainDomainStart
  | waymarkEnd (wm : Fin 23) (pass : Bool) (units : WmUnits)
  | waymarkTimeout (wm : Fin 23)
  | safeRetryTimer
  | mainPgRise
  | mainPgFall
  | waymarkMemoryClear
  | calibrationSave
  | calibrationFactory
  | sha256
  | sha384
  | verifyP256
  | verifyP384
  | secCommandDone
  | keyRevoke (slot : Fin 8)
  | rngRead
  | heartbeat (n : Fin 16)
  | roleLate (n : Fin 16)
  | roleMove (n : Fin 16)
  | aocHeartbeatTimeout
  | errorReport (code : Word) (sev : BitVec 3) (blk unit : Byte) (a0 a1 a2 a3 : Word)
  | errorQueuePop
  | eventLogged (code : Word) (sev : BitVec 3) (blk unit : Byte) (a0 a1 a2 a3 : Word)
  | eventLogWrite
  | eventLogClear
  | requestAudit
  | pcieLinkUp (speed : BitVec 3) (width : BitVec 4)
  | bar0Read (byteOff : BitVec 22) (ndw : Nat)
  | railDischarged (co : CourseId)
  | corruptedUpstreamPacket (p : PortId) (packet : Option (List Byte))
  | pwmPeriodStart (co : CourseId)
  deriving DecidableEq, Repr

end Sys2Proof
end

