-- ==== Sys2Proof/Decode.lean ====
section
/-! DEFINITION. Commands as words of the operation table: no row of the table gives its command any bits, so no word spells a command. -/
namespace Sys2Proof

/-- The command that a word spells by the operation table's bits. The table gives no row bits, so the answer is none (DESIGN CHOICE, log entry 4). -/
def decodeTableWord (_nbits _w : Nat) : Option Instr := none

end Sys2Proof
end

