-- ==== Sys2Proof/Config.lean ====
section
/-! DEFINITION. What one device fixes (fuses, ROM, silicon) and the free values: constants without a body, so that no proof can see a value of one. -/
namespace Sys2Proof.Config

/-- Free value: the `n`-th random word of the true random source (R426, R308). The model counts reads in State.freeCtr (DESIGN CHOICE, log entry 9). -/
opaque random : Nat → BitVec 32
/-- Free value: a value the spec leaves open, the `n`-th time one is needed (State.freeCtr counts) (DESIGN CHOICE, log entry 9). -/
opaque freeValue : Nat → BitVec 64
/-- The AOC ROM's contents, by word offset (Table 2.1); the spec gives none (DESIGN CHOICE, log entry 8). -/
opaque aocRom : Nat → Word
/-- SYS_ID.REV: the silicon revision (Table 15.11: "silicon") (DESIGN CHOICE, log entry 10). -/
opaque siliconRev : BitVec 8
/-- The device serial of QUERY item 0x01 (Table 13.9). -/
opaque deviceSerial : BitVec 64
/-- The endpoint UUID of the side lane (R388), a byte per index. -/
opaque endpointUuid : Fin 16 → Byte
/-- SEC_KEYS.FUSED as the factory fused it (Table 15.12: "fuses") (DESIGN CHOICE, log entry 10). -/
opaque fusedKeys : BitVec 8
/-- SEC_KEYS.REVOKED as it stood before any revocation the model sees. -/
opaque revokedKeys : BitVec 8
/-- The SHA-384 digest that key slot `k` holds (R409), as bytes (DESIGN CHOICE, log entry 10). -/
opaque keyDigest : Fin 8 → List Byte
/-- SVNMIN of the fuses before any raise the model sees (R411) (DESIGN CHOICE, log entry 10). -/
opaque svnMin : BitVec 6
/-- HBM training results, as the controllers store them in the boot directory (Table 15.5, TRAIN), by word index (DESIGN CHOICE, log entry 10). -/
opaque trainWord : Nat → Word
/-- A state-store device as WM03 reads its SFDP table: one field for each requirement of Table 2.6. -/
structure SsDevice where
  octalDdr   : Bool
  dqs        : Bool
  sfdp       : Bool
  clock50    : Bool
  clock200   : Bool
  io18       : Bool
  inPlace    : Bool
  anyLength  : Bool
  durable1us : Bool
  endurance  : Nat
  years70C   : Nat
  megabytes  : Nat
  deriving DecidableEq, Repr

/-- The state-store devices that the board fits: up to 2 on each channel (R52, R53) (DESIGN CHOICE, log entry 10). -/
opaque ssDevice : Fin 4 → Fin 2 → Option SsDevice
/-- Free value: byte `i` of QUERY item 0x01, the identity record, whose layout the spec does not give (Table 13.9), for a firmware image, its version and the roof plan's version (DESIGN CHOICE, log entry 10). -/
opaque identityByte (image fwVersion planVersion : Nat) (i : Fin 32) : Byte
/-- The SMBus address of the endpoint that holds an endpoint ID, to which its responses go (R388). -/
opaque sideAddr : Byte → BitVec 7
/-- The subsystem vendor ID and subsystem ID in the device fuses, where they are fused (Table 13.1). -/
opaque fusedSubsystem : Option (BitVec 16 × BitVec 16)
/-- Free value: the n-th byte of an MCTP control response whose layout only DSP0236 gives (R388) (PRESUMED, log entry 26). -/
opaque mctpByte : Nat → Byte
/-- Where the waymark log stands in AOC SRAM, as a word offset; the spec gives none (R407) (DESIGN CHOICE, log entry 58). -/
opaque waymarkLog : Nat
/-- Where the queue of event-log entries stands in HBM, as a word address; the spec gives none (R429) (DESIGN CHOICE, log entry 58). -/
opaque eventQueue : Nat
/-- Where a resident set stands in the resident area, as a word offset, by the set's index; the spec gives none (R440) (DESIGN CHOICE, log entry 58). -/
opaque residentSet : Nat → Nat

end Sys2Proof.Config
end

