-- ==== Sys2Proof/Machine/State.lean ====
section
/-! DEFINITION. The state of the LW6400 as plain data: register file, memories, cores, vector engine, waveforms, dispatcher, slate ports, courses, power, always-on domain, host interface, side lane, start-up, security and reliability, and the queue of waiting commands. -/
namespace Sys2Proof.Machine
open Sys2Proof

/-- A sparse store of words: keys strictly rising, no entry equal to what an unlisted key reads as. -/
abbrev WMap := List (Nat × Word)

/-- The register file (R7 to R13). Keys are block × 0x1_0000 + offset. `val`: each word as last written or as the hardware maintains it; `eff`: the value in effect of a field whose boundary is not the element; `cap`: words captured by a read of the lowest word (R8); `held`: lower words written and not yet in effect (R8). -/
structure RegFile where
  val  : WMap
  eff  : WMap
  cap  : WMap
  held : WMap
  deriving DecidableEq, Repr

/-- AMODEn, MBASEn and MLENn (Table 7.11). -/
structure AddrMode where
  mode  : BitVec 2
  brw   : BitVec 5
  mbase : Addr
  mlen  : BitVec 20
  deriving DecidableEq, Repr

/-- A core window (Table 9.3). -/
structure CoreWin where
  base   : Addr
  limit  : Addr
  rights : BitVec 9
  deriving DecidableEq, Repr

/-- A pending far load (R217): address, lowest stack position it fills, whether it fills two, the queue fences it waits for (R259: queue and the count of completed commands it needs), how many posted accesses before it are still queued (R222), and what it has read once it is performed: its words, and how it failed, as the INFO bits [15:12] of its late bus error (R272), 0 where it did not. -/
structure FarLoad where
  addr   : Addr
  pos    : Nat
  dbl    : Bool
  fence  : List (Nat × Nat)
  before : Nat
  got    : Option (Word × Word × BitVec 4)
  deriving DecidableEq, Repr

/-- A posted far store or ring write of a core (R217, R221), with the ring it was issued in. -/
structure Posted where
  isRing : Bool
  addr   : Addr
  lo     : Word
  hi     : Option Word
  ring   : BitVec 2
  deriving DecidableEq, Repr

/-- A queued late bus error (R272): INFO bits [15:12] and the address. -/
structure LateError where
  kind : BitVec 4
  addr : Addr
  deriving DecidableEq, Repr

/-- The architectural state of a control core (Tables 7.1, 7.11, 7.12, 9.3, 9.12, 9.13, 9.14) and of its queues. `winDe`: per word of the fetch window, the decode page as it stood when the word entered, where it has changed since (R282). -/
structure Core where
  stack    : List Word
  depth    : Nat
  a        : List Addr
  am       : List AddrMode
  pc       : Addr
  lc       : Word
  rc       : Word
  st       : Word
  fps      : Word
  crcp     : BitVec 32
  crcs     : BitVec 32
  cycle    : BitVec 64
  ahead    : Nat
  tcmp     : List (BitVec 64)
  tctl     : List (BitVec 2)
  evbase   : Word
  df       : Bool
  edepth   : BitVec 6
  imask    : Word
  ssp      : List Addr
  gbase    : Word
  gcount   : BitVec 9
  cw       : List CoreWin
  de       : List (Word × Word)
  msteps   : WMap
  mcaddr   : BitVec 9
  mclo     : Word
  mchi     : Word
  mccode   : Byte
  ctlCap   : WMap
  ctlHeld  : WMap
  far      : List FarLoad
  posted   : List Posted
  lbe      : List LateError
  lbeLost  : Nat
  lbeHold  : Option Addr
  fence    : List (Nat × Nat)
  winBase  : Addr
  win      : List Word
  winDe    : List (Option (List (Word × Word) × WMap))
  role     : Option (Fin 16)
  running  : Bool
  halted   : Bool
  retired  : Bool
  waiting  : Bool
  stalled  : Bool
  deriving DecidableEq, Repr

/-- A pending interrupt source (Table 9.6), addressed to a role; role 16 is the AOC. -/
structure IntSource where
  role  : Nat
  cause : Nat
  info  : Word
  addr  : Addr
  deriving DecidableEq, Repr

/-- A host command taken: its ring and its sequence number there (Taken.seq), which no other command of the ring ever has. -/
abbrev HostRef := RingId × Nat

/-- An entry of an issue queue: command address, issuing role (R72), and the host command that pushed it (R382). -/
structure VEntry where
  addr : Addr
  role : Nat
  host : Option HostRef
  deriving DecidableEq, Repr

/-- One masked word store of a segment, in element order (R88, R77). -/
structure VStore where
  addr : Nat
  val  : Word
  mask : Word
  deriving DecidableEq, Repr

/-- The store buffer of one segment that a pipe has run (R87, R88). `fault`: the first faulting element and whether it was poison. -/
structure SegBuf where
  seg    : Nat
  pipe   : Nat
  stores : List VStore
  flags  : BitVec 7
  fault  : Option (Nat × Bool)
  deriving DecidableEq, Repr

/-- A vector command in progress: fetched words, pattern copy (R85), descriptor copies (R78), segments run and not yet committed; `replay`: segments to run again and `erred`: the pipes each segment erred on (R433). -/
structure VCmd where
  entry    : VEntry
  words    : List Word
  pat      : List Word
  descs    : Option (List (Nat × List Word))
  nextSeg  : Nat
  wave     : Nat
  bufs     : List SegBuf
  replay   : List (Nat × List Nat)
  erred    : List (Nat × List Nat)
  doneEl   : Nat
  fpf      : BitVec 7
  final    : Option Word
  faultVal : BitVec 32
  deriving DecidableEq, Repr

/-- An issue queue (R64, R92 to R94). `pushed` and `completed` count commands. -/
structure VQueue where
  waiting   : List VEntry
  prog      : List VCmd
  stopped   : Bool
  paused    : Bool
  flushing  : Bool
  pushed    : Nat
  completed : Nat
  deriving DecidableEq, Repr

/-- A resident waveform set (R141): its words, and the MODE_LOAD payloads that replace modes of it. -/
structure ResSet where
  words : List Word
  modes : List (Nat × List Word)
  deriving DecidableEq, Repr

/-- A frame table slot of the W units (R149): 16,384 codes. -/
structure Slot where
  codes : List (BitVec 3)
  deriving DecidableEq, Repr

/-- A drive or write-back command that the dispatcher has pushed and that has not completed (R72, R180): its issuer, the service core; its course, region-frame, port, first line and lines, W operation (1 DRIVE, 2 DRIVEL, 3 DRIVED; 0 for the PSCLOSE of a write-back) and K (Table 5.12); its class is DRIVE (R63). `cur`: its course frame has started. `nextSeg`: the first segment not started; `bufs`: segments run, each with its pipe, whose checks may still fail; `replay`: segments to run again and `erred`: the pipes each segment erred on (R433). -/
structure DriveCmd where
  issuer : Nat
  course : Nat
  rid    : Nat
  frame  : Nat
  port   : Nat
  y      : Nat
  lines  : Nat
  op     : Nat
  k      : BitVec 32
  cur    : Bool
  nextSeg : Nat
  bufs   : List (Nat × Nat)
  replay : List (Nat × List Nat)
  erred  : List (Nat × List Nat)
  deriving DecidableEq, Repr

/-- A table build in progress (R149): the slot, its two tables (one unless a pair), the region-frames it serves, and the line group of a RECOVER run (R156). A build that waits has no slot yet; it takes one when a builder does. -/
structure Build where
  slot  : Nat
  grp   : Nat
  pair  : Bool
  t0    : List (BitVec 3)
  t1    : List (BitVec 3)
  course : Nat
  rids  : List Nat
  frame : Nat
  deriving DecidableEq, Repr

/-- The vector engine (Chapter 3) with the W units' table slots and the two builders (Chapter 5). -/
structure Ve where
  queues   : List VQueue
  active   : List Nat
  retired  : List Nat
  testing  : List Nat
  last     : List (Nat × Nat × Nat)
  errs     : List (Nat × Nat)
  rr       : List Nat
  engFault : Bool
  slots    : List (Option Slot)
  builds   : List (Option Build)
  buildQ   : List Build
  deriving DecidableEq, Repr

/-- Region states (Table 6.1). -/
inductive RState where
  | waiting | admitted | running | parked | recovering | closing | done
  deriving DecidableEq, Repr

/-- Why a region is parked (R178, R188, R325, R441); `takeover` is between the splice and the next run. -/
inductive ParkReason where
  | hold | yield | rails | loss | milestone
  deriving DecidableEq, Repr

/-- The kind of a run (Table 6.7). -/
inductive RunKind where
  | run | chained | recover
  deriving DecidableEq, Repr

/-- A rectangle within one slate. -/
structure Rect where
  x : Nat
  y : Nat
  w : Nat
  h : Nat
  deriving DecidableEq, Repr

/-- A region (R165 to R190). `deadline`: device time. `order`: admission order. `frame`: frames of the run complete; the frame in progress while `cur` holds (for a RECOVER run the interrupted frame k). `line`, `rline`: last line that received the frame, of a lost or interrupted region. `cur`: advances in the course frame in progress; `nxt`: in the plan of the next. `spanEnd`: closing boundary of the span. `nkind`: kind of the run that starts once splice writes are durable. `tgtDur`, `splDur`: target words, splice writes durable. Estimates are per frame, in µJ; `held*` are what the region still holds. `wear`: the first frame of the run has completed (R310). `parkN`: the region that these pixels are parked for (R185). `waitsFor`: the regions, or parked pieces, whose hand-over it waits for. `spanB`: the boundary at which the latest span begins. `own`: the set that the region runs by where a MODE_LOAD has replaced a mode since it was formed (R141). `orig`: of a piece parked for another region, the region it was cut from and the rectangle that it had; the journal image shows that region as it was until the splice writes of the piece are durable (R192). `under`: the region cut from, while the image still shows that one in this region's place. -/
structure Region where
  id       : Nat
  req      : Nat
  port     : PortId
  rect     : Rect
  mode     : Nat
  cls      : Nat
  deadline : Option Nat
  order    : Nat
  st       : RState
  reason   : ParkReason
  kind     : RunKind
  rkind    : RunKind
  nkind    : RunKind
  frame    : Nat
  line     : Option Nat
  rframe   : Nat
  rline    : Option Nat
  spanEnd  : Nat
  cur      : Bool
  nxt      : Bool
  tb       : Nat
  ab       : Nat
  inv      : Nat
  tgtDur   : Bool
  splDur   : Bool
  ef       : Nat
  hf       : Nat
  rf       : Nat
  heldE    : Nat
  heldH    : Nat
  heldR    : Nat
  holdMark : Bool
  cancelMk : Bool
  lost     : Bool
  doubt    : Bool
  starved  : Bool
  wear     : Bool
  parkN    : Option Nat
  waitsFor : List Nat
  serial   : BitVec 64
  setCrc   : BitVec 32
  spanB    : Nat
  own      : Option ResSet
  orig     : Option (Nat × Rect)
  under    : Option Nat
  deriving DecidableEq, Repr

/-- A host UPDATE request (R165 to R169). `stat` accumulates SLATE_LOST, CANCELLED, MERGED. `watch`: HOLD and CANCEL commands whose completion waits on it (R188). -/
structure Request where
  id       : Nat
  ring     : RingId
  cid      : Word
  seq      : Nat
  rect     : Rect
  mode     : Nat
  cls      : Nat
  deadline : Option Nat
  waiting  : Bool
  holdMark : Bool
  lostS    : Bool
  cancelS  : Bool
  mergedS  : Bool
  formed   : Nat
  limited  : Bool
  watch    : List (Bool × HostRef)
  deriving DecidableEq, Repr

/-- Kinds of a journal record (Table 6.7). -/
inductive JKind where
  | run | chained | recover | lost
  deriving DecidableEq, Repr

/-- A journal record of 15 words (Table 6.7). `own`: the set that its region was formed with, where MODE_LOAD has given the slate modes; it is no part of the 15 words (DESIGN CHOICE, log entry 56). -/
structure JRec where
  rid    : Nat
  port   : PortId
  kind   : JKind
  mode   : Nat
  tb     : Nat
  ab     : Nat
  inv    : Nat
  doubt  : Bool
  frame  : Nat
  rkind  : JKind
  fkind  : JKind
  line   : Nat
  rect   : Rect
  rframe : Nat
  rline  : Nat
  serial : BitVec 64
  setCrc : BitVec 32
  own    : Option ResSet
  deriving DecidableEq, Repr

/-- The dispatcher (Chapter 6): requests, regions, buckets in µJ (signed), audit counters (48 bits), the journal image and the stops that hold it. -/
structure Disp where
  requests : List Request
  regions  : List Region
  nextId   : Nat
  ebucket  : Int
  hbucket  : Int
  issued   : BitVec 48
  held     : BitVec 48
  spent    : BitVec 48
  yielding : Bool
  image    : List JRec
  stopped  : Bool
  sleeping : Bool
  noSpans  : Bool
  drives   : List DriveCmd
  deriving DecidableEq, Repr

/-- Port states (Table 10.7), in the order of SL_PSTATn.STATE. -/
inductive PortState where
  | off | detect | align | config | active | retrain
  deriving DecidableEq, Repr

/-- A downstream packet (Table 10.4), by its fields; a LINE carries spans of first group, group count and code bytes. -/
inductive DownPkt where
  | line (rpl : Bool) (sseq : Word) (ftag : Byte) (line : Nat) (spans : List (Nat × Nat × List Byte))
  | frameBegin (rpl : Bool) (sseq : Word) (ftag : Byte) (tline nlines : Nat)
  | frameEnd (rpl : Bool) (sseq : Word) (ftag : Byte)
  | bridgeWrite (tag : BitVec 4) (addr : Nat) (data : List Byte)
  | bridgeRead (tag : BitVec 4) (addr : Nat) (len : Nat)
  | ping (lanes : BitVec 2) (ptag : Byte)
  | creditSync (reset : Bool) (next : Word)
  deriving DecidableEq, Repr

/-- An outstanding bridge transaction (R304); `dead`: of a life write that has failed, so that its answer changes nothing (R312). -/
structure Trans where
  tag     : BitVec 4
  write   : Bool
  addr    : Nat
  len     : Nat
  data    : List Byte
  retries : Nat
  busy    : Bool
  due     : Bool
  dead    : Bool
  deriving DecidableEq, Repr

/-- The frame a port is sending (R293): lines still to send, and the SSEQ of FRAME_END once sent. -/
structure TxFrame where
  ftag    : Byte
  tline   : Nat
  lines   : List Nat
  all     : List Nat
  nlines  : Nat
  began   : Bool
  cred    : List Nat
  endSseq : Option Word
  sentLn  : List (Word × Nat)
  deriving DecidableEq, Repr

/-- An attached slate: its record (Table 10.9), resident set and wear counters (R310, R311). -/
structure Slate where
  header   : List Byte
  serial   : BitVec 64
  width    : Nat
  height   : Nat
  nstates  : Nat
  rated    : Nat
  underlay : List Byte
  overlay  : List Byte
  frames   : Nat
  light    : Nat
  blocks   : List Nat
  genA     : Option Nat
  genB     : Option Nat
  lline    : Word
  unknown  : Bool
  deriving DecidableEq, Repr

/-- A bridge transfer that waits for a free tag (R304). -/
structure Xfer where
  write : Bool
  addr  : Nat
  len   : Nat
  data  : List Byte
  deriving DecidableEq, Repr

/-- A life write in progress (R312): copy B or A, its generation, the chunks still to be answered, the chunk with LCRC, which is sent once every other has been answered, and the LIFE command that waits for it. -/
structure LifeWrite where
  copyB : Bool
  gen   : Nat
  left  : Nat
  last  : Xfer
  host  : Option HostRef
  deriving DecidableEq, Repr

/-- A slate port (Chapter 10). `pendingAt`, `challenge`, `polls`, `authPol` (AUTHPOL as the attach found it) and `authStage` (1: the challenge is being written, 2: the byte that asks for the signature, 3: the signature is awaited, 4: it is being read) run R308; `syncReset`: the RESET of this CONFIG's CREDIT_SYNC (R303); `gap`: a transaction, PING or CREDIT_SYNC has been sent since the latest stream packet (R297); `tempSeen`: SL_TEMPn holds a reading (R316); `guardLine`: the line that the bridge may still be driving within the line guard of a prompt path, or until `guardEnd` (R323, R329); `set` indexes the resident sets. `replayBuf` keeps each packet with the times it was sent; `fails` and `replays` are the times of recent CREDIT failures and replays; `newSlate`: the next CONFIG starts a new session for a slate newly attached. -/
structure Port where
  st        : PortState
  d0        : Bool
  d1        : Bool
  u         : Bool
  oneLane   : Bool
  drivable  : Bool
  lifeWarn  : Bool
  expired   : Bool
  next      : Word
  acked     : Word
  done      : Word
  limit     : Word
  buf       : Nat
  boot      : Option Byte
  seenBoot  : Byte
  ptag      : Byte
  pings     : Nat
  cfgTries  : Nat
  fails     : List Nat
  grace     : Bool
  newSlate  : Bool
  ftag      : Byte
  frame     : Option TxFrame
  replayBuf : List (DownPkt × Nat)
  replays   : List Nat
  statSeen  : Bool
  xfers     : List Xfer
  lifeW     : Option LifeWrite
  resend    : List DownPkt
  lastSent  : Option DownPkt
  trans     : List Trans
  credLine  : Option Nat
  sentLine  : Option Nat
  tempOk    : Bool
  tempSeen  : Bool
  tempAt    : BitVec 64
  staleT    : Bool
  staleEv   : Option (BitVec 64)
  set       : Option Nat
  tb        : Nat
  ab        : Nat
  slate     : Option Slate
  pendingAt : Option SlateData
  challenge : List Byte
  polls     : Nat
  authStage : Nat
  authPol   : Nat
  syncReset : Bool
  gap       : Bool
  guardLine : Option Nat
  guardEnd  : Nat
  deriving DecidableEq, Repr

/-- Course rail states (RL_COn_STAT.STATE). -/
inductive RailState where
  | off | rising | up | falling | fault
  deriving DecidableEq, Repr

/-- One region-frame of a frame plan (R179): region, frame index, table slot, whether its tables are built, and its estimates in µJ (R172). -/
structure PlanItem where
  rid   : Nat
  frame : Nat
  slot  : Nat
  ready : Bool
  ef    : Nat
  hf    : Nat
  rf    : Nat
  deriving DecidableEq, Repr

/-- A course: rails, front light and frame timing (Chapters 6 and 11). `stretches`: the stretches of the last 16 frames, in parts of 10^8 of the nominal period (R182). `waitAt`: since when a fault path waits for credits (R328); `pathLost`: its regions were lost by a fault path, and recover at its next UP (R328). -/
structure Course where
  rail      : RailState
  step      : Nat
  good      : List (Fin 9)
  onWait    : Bool
  offWait   : Bool
  onAfter   : Bool
  retryAt   : List Nat
  retryWait : Bool
  hardFault : Bool
  flEn      : Bool
  flPwm     : Bool
  dutyEff   : BitVec 12
  lightHeld : Bool
  pathStop  : Bool
  dozeUp    : Bool
  holdOff   : Bool
  heatRate  : Nat
  rate      : Nat
  plan      : List PlanItem
  planned   : Bool
  now       : List PlanItem
  frameOpen : Bool
  startAt   : BitVec 64
  autoOff   : Bool
  slotNext  : Nat
  stretches : List Nat
  railb     : Int
  tgt       : List Int
  cleared   : Bool
  waitAt    : Option (BitVec 64)
  pathLost  : Bool
  deriving DecidableEq, Repr

/-- The memory controllers: the retired pseudo-channel and whether it migrates, the banks that the spares replace, a copy in progress of a failing vector-store bank and the banks that wait (R49, R432), errors of the last 24 h by unit and tick, the writes queued on each channel of the state store by level and tag (R58), and the failures so far of queued writes, by channel, level and tag (R60). -/
structure MemCtl where
  retiredPc : Option (Fin 64)
  migrating : Bool
  spares    : List (Option Nat)
  copying   : Option Nat
  copyWait  : List Nat
  ceBank    : List (Nat × Nat)
  cePc      : List (Nat × Nat)
  uePc      : List (Nat × Nat)
  ssReady   : Bool
  hbmReady  : Bool
  vsReady   : Bool
  ssq       : List (Nat × Nat × Nat × List (Nat × Word))
  ssFails   : List (Nat × Nat × Nat × Nat)
  ssLost    : Bool
  deriving DecidableEq, Repr

/-- Power states (Table 12.1). -/
inductive PowerState where
  | off | sleep | doze | idle | run
  deriving DecidableEq, Repr

/-- Who gave an order (R398). -/
inductive OrderSrc where
  | host (h : HostRef)
  | side (src : Byte)
  | auto
  deriving DecidableEq, Repr

/-- A power-state order (R346). `also`: who gave one for the same state in the same tick, which applies with it (Table 14.5). -/
structure Order where
  target : PowerState
  wake   : BitVec 32
  src    : OrderSrc
  tick   : BitVec 48
  also   : Option OrderSrc
  deriving DecidableEq, Repr

/-- The power block (Chapter 12). `cur` is the order whose transition waits or runs, `inTrans` whether it runs, `kept` the kept order (R346). `stopping`, `tripped`: an orderly thermal stop, a thermal stop or trip in progress (R357). `slept`: the latest SLEEP was ordered; `sleepOrd`: the steps of R348 have reached the journal slot. `coolWait`, `hotTries`: the AOC waits before a start, and the hot starts in a row (R358). `wakePend`, `wakeHeld`: wake sources held back by low VIN (R351). `clk*`: the clocks on demand (R356). `vinf`: a VIN-fail is in progress; `vinStep`: the step of Table 11.5 that a VIN-fail or a stop has reached, 0 for none (R339, R401). `dozeAt`, `timeRem`: the AON tick of DOZE entry and the remainder carried at DOZE exit (R356). `vinLow`: the VIN monitor has fired and is not armed again (R338). `hard`: a hard trip has acted (R357). `ordTick`: the tick of the latest order applied or kept (R398). -/
structure Power where
  st        : PowerState
  cur       : Option Order
  inTrans   : Bool
  kept      : Option Order
  throttle  : Bool
  stopping  : Bool
  tripped   : Bool
  idleWatch : Bool
  slept     : Bool
  sleepOrd  : Bool
  coolWait  : Bool
  hotTries  : Nat
  wakePend  : List (Fin 8)
  wakeHeld  : Bool
  clkWf     : Bool
  clkXspi   : Bool
  clkBurst  : Bool
  vinf      : Bool
  vinStep   : Nat
  dozeAt    : BitVec 48
  timeRem   : Nat
  vinLow    : Bool
  hard      : Bool
  ordTick   : BitVec 48
  deriving DecidableEq, Repr

/-- The always-on domain beside its registers (Chapter 12). -/
structure Aon where
  tick     : BitVec 48
  tickFrac : Nat
  xtalF    : Bool
  fifo     : List Word
  prevScan : BitVec 64
  scanNo   : Byte
  ainBad   : List Nat
  ainRaised : List Bool
  calJump  : Bool
  ssLoss   : Bool
  deriving DecidableEq, Repr

/-- A submission entry taken and not yet completed (R372, R376). `lostC`: its completion was lost (R364). `prog` counts what the command has done so far. -/
structure Taken where
  cid     : Word
  op      : Byte
  cls     : Nat
  after   : Bool
  body    : List Byte
  seq     : Nat
  started : Bool
  lostC   : Bool
  time    : BitVec 64
  tick    : BitVec 48
  prog    : Nat
  bad     : Nat
  pushLeft : Nat
  stopped : Bool
  queue   : Nat
  deriving DecidableEq, Repr

/-- A posted completion entry, as written to host memory (Table 13.5). -/
structure Completion where
  ring   : RingId
  cid    : Word
  status : Byte
  phase  : Bool
  sqHead : Word
  detail : Byte
  result : BitVec 32
  time   : BitVec 32
  deriving DecidableEq, Repr

/-- A ring (R370 to R375): configuration in effect, indices, and accounting. `bells`: tail doorbells that still have entries to take, each with the device time and AON tick at which it was seen. -/
structure Ring where
  en       : Bool
  sqBase   : BitVec 64
  cqBase   : BitVec 64
  sqSize   : Nat
  cqSize   : Nat
  sqHead   : Nat
  sqTail   : Nat
  cqHead   : Nat
  cqTail   : Nat
  phase    : Bool
  unrel    : Nat
  err      : Bool
  errCode  : BitVec 4
  unsig    : Nat
  taken    : List Taken
  bells    : List (Nat × BitVec 64 × BitVec 48)
  nextSeq  : Nat
  acc      : BitVec 32
  cpl      : BitVec 32
  lost     : BitVec 32
  deriving DecidableEq, Repr

/-- A DMA transfer (R385): command, direction, rows left as chunks of (host address, device address, bytes). -/
structure Dma where
  host   : HostRef
  toDev  : Bool
  cls    : Nat
  chunks : List (Nat × Nat × Nat)
  moved  : Nat
  deriving DecidableEq, Repr

/-- The endpoint's configuration beside its constants (Table 13.1): the power state D3hot or D0, the payload and read request sizes as PCI Express encodes them (128 bytes << code), and the AER status of uncorrectable and correctable errors. -/
structure PcieCfg where
  d3hot      : Bool
  maxPayload : BitVec 3
  maxRead    : BitVec 3
  aerUncorr  : BitVec 32
  aerCorr    : BitVec 32
  deriving DecidableEq, Repr

/-- A completer abort is reported in the AER status, bit 15 (Table 13.1) (PRESUMED, log entry 51). -/
def PcieCfg.abort (c : PcieCfg) : PcieCfg := { c with aerUncorr := c.aerUncorr ||| 0x8000 }

/-- The endpoint's configuration after a reset (PRESUMED, log entry 51). -/
def PcieCfg.reset : PcieCfg := ⟨false, 0, 2, 0, 0⟩

/-- The host interface (Chapter 13). -/
structure Hif where
  rings    : List Ring
  msix     : List (BitVec 32)
  pba      : BitVec 64
  lastMsi  : List Nat
  linkUp   : Bool
  speed    : BitVec 3
  width    : BitVec 4
  aspm     : BitVec 2
  dma      : List Dma
  movers   : List (Option HostRef)
  lastCpl  : Option Completion
  lastRead : List (Option Byte)
  aborted  : Bool
  cfg      : PcieCfg
  deriving DecidableEq, Repr

/-- A message being reassembled on the side lane (R390). -/
structure Reasm where
  src   : Byte
  tag   : BitVec 3
  next  : BitVec 2
  bytes : List Byte
  deriving DecidableEq, Repr

/-- A complete Kwavis request that passed R393 checks 1 to 4; `tag`: its MCTP message tag, which the response carries. -/
structure KMsg where
  src   : Byte
  code  : Byte
  inst  : Byte
  body  : List Byte
  tick  : BitVec 48
  tag   : BitVec 3
  deriving DecidableEq, Repr

/-- The side lane (Chapter 14). `lastResp`: the latest message sent, `sent`: its packets as SMBus carries them (R388). `orders` are the orders of the current tick (R398). `curReset`: the RESET whose stop runs, answered once the slot is durable (R397); `keptReset`: one kept through a transition (R346). -/
structure Side where
  eid      : Byte
  strap    : BitVec 2
  reasm    : List Reasm
  msgs     : List KMsg
  lastResp : List Byte
  sent     : List (List Byte)
  discards : Byte
  blank    : Bool
  railsOff : Byte
  lastOrd  : Byte
  alert    : Bool
  mirror   : List (List Word)
  stale    : List Word
  orders   : List (BitVec 48 × Bool × Byte × Nat)
  curReset : Option KMsg
  keptReset : Option KMsg
  deriving DecidableEq, Repr

/-- Outcome of a start (Table 15.4, OUTCOME), in its encoding order. -/
inductive Outcome where
  | running | ready | safeAon | safeFw | safePlan | safeDrive | hot
  deriving DecidableEq, Repr

/-- A waymark's record (Table 15.4). -/
structure WmRec where
  result   : Nat
  attempts : Nat
  path     : Nat
  detail   : Byte
  units    : Byte
  start    : BitVec 32
  dur      : BitVec 32
  deriving DecidableEq, Repr

/-- A slate entry of the user layer (R420): the serial it is for, the overlay with its version, the customer modes loaded, and TOFS. -/
structure Layer where
  serial  : BitVec 64
  overlay : Option (List Byte)
  ver     : BitVec 32
  modes   : List (Nat × List Word)
  tofs    : Word
  deriving DecidableEq, Repr

/-- An entry that holds nothing, for no slate. -/
def Layer.empty : Layer := ⟨0, none, 0, [], 0⟩

/-- Start-up (Chapter 15): the waymark log, progress, the boot directory's uses, the plan in effect and the staged plan, and the user layer. `cached`: each port's record in the state store, header, set and underlay (R56, R307). `vstby`: VSTBY is within its operating range (R347). `portWm`: the waymark from 14 to 17 that a port runs, 18 once it has ended them (R403). `trainWarm`: WM08 began on the warm path. `portPath`: per port, 0 while WM16 has not failed on it, 1 on its second method, 2 once both have failed (R404). `logCause`: the cause of the latest start, as its log's header has it (R407). `hiZ`: counts of 10 ns of the main domain's clock reference until its signal balls are driven, while MAIN_PG is high; 0 once they are (R451). -/
structure Boot where
  cause    : Nat
  warm     : Bool
  outcome  : Outcome
  starts   : Word
  startTk  : BitVec 48
  durTk    : BitVec 48
  wm       : Nat
  recs     : List WmRec
  meth     : List Nat
  tries    : List Nat
  marked   : Bool
  inReset  : Bool
  pwrEn    : Bool
  mainPg   : Bool
  mainOn   : Bool
  resetN   : Bool
  safeTry  : Nat
  plan     : List Word
  staged   : Option (List Word)
  planSrc  : Nat
  fwB      : Bool
  fwSvn    : BitVec 6
  fwDigest : List Byte
  swapWait : Option (Bool × HostRef)
  dirWait  : Option HostRef
  calDirty : Bool
  layers   : List Layer
  calGen   : BitVec 32
  cached   : List (Option (List Byte × List Word × List Byte))
  jrnSlot  : Option (List JRec)
  oldSets  : List (Option ResSet)
  replayed : List JRec
  sumOut   : Nat
  vstby    : Bool
  portWm   : List Nat
  trainWarm : Bool
  portPath : List Nat
  logCause : Nat
  hiZ      : Nat
  deriving DecidableEq, Repr

/-- The security block (R409, R426). -/
structure Sec where
  busy    : Bool
  pass    : Bool
  op      : BitVec 4
  svnUp   : BitVec 6
  revoked : Byte
  rng     : BitVec 32
  deriving DecidableEq, Repr

/-- An event of the log queue in HBM (R429): its 16 words with CRC, and the device time base when it began. -/
structure EvEntry where
  words : List Word
  began : BitVec 64
  deriving DecidableEq, Repr

/-- The RAS block (Chapter 16). `late`, `hbAt`: per role, whether it is late, and the time of its latest heartbeat. `moving`: the role whose move waits for its first heartbeat; `moveQ`: roles that wait for a move. -/
structure Ras where
  evq     : List EvEntry
  eq      : List (List Word)
  late    : List Bool
  hbAt    : List (BitVec 64)
  moving  : Option (Fin 16)
  moveQ   : List (Fin 16)
  deriving DecidableEq, Repr

/-- Rail-die loop state per port (R331 to R334): consecutive OPEN, WARN and OK readings, and whether the warning was logged. -/
structure Loop where
  openN  : Nat
  warnN  : Nat
  okN    : Nat
  warned : Bool
  deriving DecidableEq, Repr

/-- The whole machine. -/
structure State where
  pending  : List Instr
  mem      : WMap
  poison   : List Nat
  hostMem  : List Host.Cell
  regs     : RegFile
  cores    : List Core
  intq     : List IntSource
  ve       : Ve
  sets     : List (Option ResSet)
  disp     : Disp
  ports    : List Port
  courses  : List Course
  loops    : List Loop
  memc     : MemCtl
  power    : Power
  aon      : Aon
  hif      : Hif
  side     : Side
  boot     : Boot
  sec      : Sec
  ras      : Ras
  time     : BitVec 64
  timeFrac : Nat
  freeCtr  : Nat
  deriving DecidableEq, Repr

/-- Why a step stops with a fault (DESIGN CHOICE, log entry 11). -/
inductive Fault where
  /-- Raised by a meaning whose command's operand lists do not have the lengths that Sys2Proof.WellFormed asks (a submission entry of other than 64 bytes, a list of temperatures of other than 24 words). No such command exists. Safe. -/
  | illFormed
  deriving DecidableEq, Repr

/-- Why a step has no meaning. -/
inductive Refusal where
  /-- Raised by an arm of exec that has no meaning yet, with the row's mnemonic. Safe. -/
  | notModelled (mnemonic : String)
  deriving DecidableEq, Repr

/-- A core before its release (Table 7.1), holding `role`. -/
def Core.reset (role : Option (Fin 16)) : Core where
  stack := List.replicate 32 0
  depth := 0
  a := List.replicate 8 0
  am := List.replicate 4 ⟨0, 0, 0, 0⟩
  pc := 0
  lc := 0
  rc := 0
  st := 0
  fps := 0
  crcp := 0x04C11DB7
  crcs := 0xFFFFFFFF
  cycle := 0
  ahead := 0
  tcmp := [0, 0]
  tctl := [0, 0]
  evbase := 0xFF00
  df := false
  edepth := 0
  imask := 0
  ssp := [0, 0, 0]
  gbase := 0
  gcount := 0
  cw := List.replicate 8 ⟨0, 0, 0⟩
  de := List.replicate 16 (0, 0)
  msteps := []
  mcaddr := 0
  mclo := 0
  mchi := 0
  mccode := 0
  ctlCap := []
  ctlHeld := []
  far := []
  posted := []
  lbe := []
  lbeLost := 0
  lbeHold := none
  fence := []
  winBase := 0
  win := []
  winDe := []
  role := role
  running := false
  halted := false
  retired := false
  waiting := false
  stalled := false

/-- The always-on core once VSTBY is valid: it runs from the first word of its ROM, with SSP0 at its base + 0xFFF0 (Table 9.12). -/
def Core.resetAoc : Core :=
  { Core.reset none with pc := 0x900FF8000, ssp := [0x900FFFFF0, 0, 0], running := true }

/-- An issue queue at reset (Table 3.22: nothing running, depth 0). -/
def VQueue.reset : VQueue := ⟨[], [], false, false, false, 0, 0⟩

/-- A port at reset (Table 10.18) (DESIGN CHOICE, log entry 7). -/
def Port.reset : Port where
  st := .off
  d0 := false
  d1 := false
  u := false
  oneLane := false
  drivable := false
  lifeWarn := false
  expired := false
  next := 0
  acked := 0
  done := 0
  limit := 0
  buf := 0
  boot := none
  seenBoot := 0
  ptag := 0
  pings := 0
  cfgTries := 0
  fails := []
  grace := false
  newSlate := true
  ftag := 0
  frame := none
  replayBuf := []
  replays := []
  statSeen := false
  xfers := []
  lifeW := none
  resend := []
  lastSent := none
  trans := []
  credLine := none
  sentLine := none
  tempOk := false
  tempSeen := false
  tempAt := 0
  staleT := false
  staleEv := none
  set := none
  tb := 0
  ab := 0
  slate := none
  pendingAt := none
  challenge := []
  polls := 0
  authStage := 0
  authPol := 0
  syncReset := false
  gap := false
  guardLine := none
  guardEnd := 0

/-- A course at reset: OFF, not configured, rail bucket full at the reset value of RAILW (Table 6.16) (DESIGN CHOICE, log entry 7). -/
def Course.reset : Course where
  rail := .off
  step := 0
  good := []
  onWait := false
  offWait := false
  onAfter := false
  retryAt := []
  retryWait := false
  hardFault := false
  flEn := false
  flPwm := false
  dutyEff := 0
  lightHeld := false
  pathStop := false
  dozeUp := false
  holdOff := false
  heatRate := 0
  rate := 0
  plan := []
  planned := false
  now := []
  frameOpen := false
  startAt := 0
  autoOff := false
  slotNext := 0
  stretches := []
  railb := 1600000
  tgt := List.replicate 9 0
  cleared := false
  waitAt := none
  pathLost := false

/-- A ring at reset (Table 13.14) (DESIGN CHOICE, log entry 7). -/
def Ring.reset : Ring where
  en := false
  sqBase := 0
  cqBase := 0
  sqSize := 0
  cqSize := 0
  sqHead := 0
  sqTail := 0
  cqHead := 0
  cqTail := 0
  phase := true
  unrel := 0
  err := false
  errCode := 0
  unsig := 0
  taken := []
  bells := []
  nextSeq := 0
  acc := 0
  cpl := 0
  lost := 0

/-- A waymark not yet reached (Table 15.4). -/
def WmRec.reset : WmRec := ⟨0, 0, 15, 0, 0, 0, 0⟩

/-- The machine right after VSTBY becomes valid, its AON registers at their power-up values and the main domain's registers at their reset values (every register table's Reset column); MSI-X vectors masked (R364) (DEDUCED, log entry 6) (DESIGN CHOICE, log entry 7). -/
def State.reset : State where
  pending := []
  mem := []
  poison := []
  hostMem := []
  regs := ⟨[], [], [], []⟩
  cores := [Core.reset (some 0), Core.reset (some 1), Core.reset (some 2), Core.reset (some 3), Core.reset (some 4), Core.reset (some 5),
    Core.reset (some 6), Core.reset (some 7), Core.reset (some 8), Core.reset (some 9), Core.reset (some 10), Core.reset (some 11),
    Core.reset (some 12), Core.reset (some 13), Core.reset (some 14), Core.reset (some 15), Core.reset none, Core.resetAoc]
  intq := []
  ve := ⟨List.replicate 16 VQueue.reset, List.range 32, [], [], [], [], [15, 15, 15, 15], false, List.replicate 16 none, [none, none], []⟩
  sets := List.replicate 64 none
  disp := ⟨[], [], 0, 5000000, 5000000, 5000000, 0, 0, false, [], false, false, false, []⟩
  ports := List.replicate 64 Port.reset
  courses := List.replicate 8 Course.reset
  loops := List.replicate 64 ⟨0, 0, 0, false⟩
  memc := ⟨none, false, List.replicate 16 none, none, [], [], [], [], false, false, false, [], [], false⟩
  power := ⟨.run, none, false, none, false, false, false, false, false, false, false, 0, [], false, true, true, true, false, 0, 0, 0, false, false, 0⟩
  aon := ⟨0, 0, false, [], 0, 0, [0, 0, 0, 0], [false, false, false, false], false, false⟩
  hif := ⟨List.replicate 16 Ring.reset, (List.range 256).map (fun i => if i % 4 = 3 then 1 else 0), 0, [], false, 0, 0, 0, [], List.replicate 8 none, none, [], false, PcieCfg.reset⟩
  side := ⟨0, 0, [], [], [], [], 0, false, 0, 0, false, [], [], [], none, none⟩
  boot := ⟨1, false, .running, 0, 0, 0, 0, List.replicate 23 WmRec.reset, List.replicate 23 0, List.replicate 23 0, false, false, true, true, true, true, 0,
    [], none, 0, false, 0, [], none, none, false, List.replicate 64 Layer.empty, 0, List.replicate 64 none, none, [], [], 0, true, List.replicate 64 18, false, List.replicate 64 0, 0, 0⟩
  sec := ⟨false, false, 0, 0, 0, 0⟩
  ras := ⟨[], [], List.replicate 16 false, List.replicate 16 0, none, []⟩
  time := 0
  timeFrac := 0
  freeCtr := 0

end Sys2Proof.Machine
end

