-- ==== Sys2Proof/Machine/Bits.lean ====
section
/-! DEFINITION. Bit fields of numbers, lists of words and bytes, sparse word maps, and the checksums of R68, R123 and R137. -/
namespace Sys2Proof.Machine
open Sys2Proof

/-- Bits [hi:lo] of a number (R4). -/
def bitsN (v hi lo : Nat) : Nat := (v >>> lo) % 2 ^ (hi + 1 - lo)

/-- One bit of a number. -/
def bitN (v i : Nat) : Bool := (v >>> i) % 2 == 1

/-- The number `v` with bits [hi:lo] replaced by the low bits of `x`. -/
def setBitsN (v hi lo x : Nat) : Nat :=
  v - (bitsN v hi lo <<< lo) + ((x % 2 ^ (hi + 1 - lo)) <<< lo)

/-- 1 for true, 0 for false. -/
def b2n (b : Bool) : Nat := if b then 1 else 0

/-- A word from a number, modulo 2^16. -/
def wd (n : Nat) : Word := BitVec.ofNat 16 n

/-- The low `k` words of a number, less significant word first (R4). -/
def wordsOfNat : Nat → Nat → List Word
  | 0, _ => []
  | k + 1, v => wd v :: wordsOfNat k (v >>> 16)

/-- The number whose words, less significant first, are given (R4). -/
def natOfWords : List Word → Nat
  | [] => 0
  | w :: ws => w.toNat + (natOfWords ws <<< 16)

/-- The low `k` bytes of a number, less significant byte first. -/
def bytesOfNat : Nat → Nat → List Byte
  | 0, _ => []
  | k + 1, v => BitVec.ofNat 8 v :: bytesOfNat k (v >>> 8)

/-- The number whose bytes, less significant first, are given. -/
def natOfBytes : List Byte → Nat
  | [] => 0
  | b :: bs => b.toNat + (natOfBytes bs <<< 8)

/-- Words of a byte list, less significant byte first; an odd last byte takes 0 above it. -/
def wordsOfBytes : List Byte → List Word
  | [] => []
  | [b] => [wd b.toNat]
  | b :: c :: r => wd (b.toNat + 256 * c.toNat) :: wordsOfBytes r

/-- Bytes of a word list, less significant byte first. -/
def bytesOfWords (ws : List Word) : List Byte :=
  ws.flatMap fun (w : Word) => [w.setWidth 8, (w >>> 8).setWidth 8]

/-- Bytes [i, i+n) of a list, as a number. -/
def fieldBytes (bs : List Byte) (i n : Nat) : Nat := natOfBytes ((bs.drop i).take n)

/-- Word `i` of a list; 0 past its end. -/
def wordAt (ws : List Word) (i : Nat) : Nat := (ws.getD i 0).toNat

/-- Words i and i+1 of a list as a 32-bit number. -/
def dwordAt (ws : List Word) (i : Nat) : Nat := wordAt ws i + wordAt ws (i + 1) * 65536

/-- Words i to i+2 of a list as a 36-bit address. -/
def addrAt (ws : List Word) (i : Nat) : Nat := wordAt ws i + wordAt ws (i + 1) * 65536 + (wordAt ws (i + 2) % 16) * 4294967296

/-- Byte `i` of a list; 0 past its end. -/
def byteAt (bs : List Byte) (i : Nat) : Nat := (bs.getD i 0).toNat

/-- What key `k` of a sparse word map reads, `d` where it is not listed. -/
def wmapGet : WMap → Nat → Word → Word
  | [], _, d => d
  | (a, v) :: r, k, d => if a = k then v else if k < a then d else wmapGet r k d

/-- A sparse word map with key `k` set to `v`; writing the value `d` that an unlisted key reads as removes the entry. -/
def wmapSet : WMap → Nat → Word → Word → WMap
  | [], k, v, d => if v = d then [] else [(k, v)]
  | (a, w) :: r, k, v, d =>
    if a = k then (if v = d then r else (k, v) :: r)
    else if k < a then (if v = d then (a, w) :: r else (k, v) :: (a, w) :: r)
    else (a, w) :: wmapSet r k v d

/-- The canonical form of a sparse word map: keys strictly rising and no entry equal to what an unlisted key reads as. -/
def wmapWf (dflt : Nat → Word) : WMap → Bool
  | [] => true
  | [(a, v)] => v != dflt a
  | (a, v) :: (b, w) :: r => v != dflt a && decide (a < b) && wmapWf dflt ((b, w) :: r)

/-- The keys [lo, hi) of a map removed. -/
def wmapClear (m : WMap) (lo hi : Nat) : WMap := m.filter fun e => e.1 < lo || hi ≤ e.1

/-- One bit of a CRC register of width `n`, most significant bit first (R68, R123). -/
def crcBit (n poly : Nat) (crc : Nat) (b : Nat) : Nat :=
  let fb := ((crc >>> (n - 1)) + b) % 2
  let c := (crc * 2) % 2 ^ n
  if fb = 1 then c ^^^ poly else c

/-- The bits k-1 down to 0 of `v` taken into a CRC. -/
def crcBits (n poly : Nat) : Nat → Nat → Nat → Nat
  | 0, _, crc => crc
  | k + 1, v, crc => crcBits n poly k v (crcBit n poly crc ((v >>> k) % 2))

/-- CRC-16 of a list of words (R68): polynomial 0x1021, initial value 0xFFFF, no reflection, no inversion. -/
def crc16Words (ws : List Word) : Nat := ws.foldl (fun c w => crcBits 16 0x1021 16 w.toNat c) 0xFFFF

/-- CRC-16 of a list of bytes, each from bit 7 down. -/
def crc16Bytes (bs : List Byte) : Nat := bs.foldl (fun c w => crcBits 16 0x1021 8 w.toNat c) 0xFFFF

/-- CRC-32 of a list of words (R137): polynomial 0x04C1_1DB7, initial value 0xFFFF_FFFF, each word from bit 15 down. -/
def crc32Words (ws : List Word) : Nat := ws.foldl (fun c w => crcBits 32 0x04C11DB7 16 w.toNat c) 0xFFFFFFFF

/-- CRC-32 of a list of bytes with the polynomial and initial value of R137, each byte from bit 7 down. -/
def crc32Bytes (bs : List Byte) : Nat := bs.foldl (fun c w => crcBits 32 0x04C11DB7 8 w.toNat c) 0xFFFFFFFF

/-- The smaller of a number and a saturation limit. -/
def satTo (m v : Nat) : Nat := if v > m then m else v

/-- Signed value of an n-bit number. -/
def toSigned (n v : Nat) : Int := if v % 2 ^ n ≥ 2 ^ (n - 1) then (v % 2 ^ n : Nat) - (2 ^ n : Nat) else (v % 2 ^ n : Nat)

/-- The n-bit two's-complement pattern of an integer. -/
def ofSigned (n : Nat) (v : Int) : Nat := (v % (2 ^ n : Nat)).toNat

/-- Set semantics on a list of numbers: add without repeats. -/
def addN (l : List Nat) (x : Nat) : List Nat := if l.contains x then l else l ++ [x]

/-- Remove a number from a list. -/
def remN (l : List Nat) (x : Nat) : List Nat := l.filter (· != x)

/-- Smallest element of a list by a key; the earlier one on a tie. -/
def minBy {α : Type} (f : α → Nat) : List α → Option α
  | [] => none
  | x :: xs =>
    match minBy f xs with
    | none => some x
    | some y => if f x ≤ f y then some x else some y

/-- Insertion in an order: `le a b` says a may stand before b; equal elements keep their order. -/
def insertBy {α : Type} (le : α → α → Bool) (x : α) : List α → List α
  | [] => [x]
  | y :: ys => if le x y then x :: y :: ys else y :: insertBy le x ys

/-- Insertion sort, stable. -/
def sortBy {α : Type} (le : α → α → Bool) (l : List α) : List α := l.foldr (fun x acc => insertBy le x acc) []

/-- The integer square root by bits, from bit k-1 down. -/
def isqrtGo (v : Nat) : Nat → Nat → Nat
  | 0, r => r
  | k + 1, r => let c := r + 2 ^ k; isqrtGo v k (if c * c ≤ v then c else r)

/-- Division rounded to the nearest, halves up. -/
def divRound (a b : Nat) : Nat := if b = 0 then 0 else (2 * a + b) / (2 * b)

/-- Division rounded up. -/
def divCeil (a b : Nat) : Nat := if b = 0 then 0 else (a + b - 1) / b

/-- A key put into a list of pairs with rising keys, whatever its value. -/
def assocPut : List (Nat × Word) → Nat → Word → List (Nat × Word)
  | [], k, v => [(k, v)]
  | (a, w) :: r, k, v => if a = k then (k, v) :: r else if k < a then (k, v) :: (a, w) :: r else (a, w) :: assocPut r k v

/-- The value of a key, if it is listed. -/
def assocGet (m : List (Nat × Word)) (k : Nat) : Option Word := (m.find? (·.1 == k)).map (·.2)

end Sys2Proof.Machine
end

