-- ==== Sys2Proof/Machine/Regs.lean ====
section
/-! DEFINITION. The register table: every register of blocks SYS to SEC with its fields, their access (R9), reset value, change class (R12, R13) and boundary, as the register tables of the spec give them. -/
namespace Sys2Proof.Machine
open Sys2Proof

/-- Access codes (Table 0.3). -/
inductive Acc where
  | rw | ro | wo | w1c
  deriving DecidableEq, Repr

/-- Change classes (Table 0.4); `none` for fields the hardware maintains. -/
inductive Chg where
  | any | idle | plan | none
  deriving DecidableEq, Repr

/-- The boundary at which an accepted write takes effect (R12); `render` is the next use, `enable` the next setting of a ring's EN. -/
inductive Bnd where
  | element | frame | segment | milestone | render | enable
  deriving DecidableEq, Repr

/-- A field: bits [hi:lo] of the register value. -/
structure Field where
  hi    : Nat
  lo    : Nat
  acc   : Acc
  reset : Nat
  chg   : Chg
  bnd   : Bnd
  deriving DecidableEq, Repr

/-- A register or an array of registers: `count` registers of `words` words, `stride` apart. -/
structure RegFam where
  blk    : Nat
  off    : Nat
  stride : Nat
  count  : Nat
  words  : Nat
  fields : List Field
  deriving DecidableEq, Repr

/-- A field whose writes take effect at the element boundary, or that no write reaches. -/
def fldE (hi lo : Nat) (a : Acc) (r : Nat) (c : Chg) : Field := ⟨hi, lo, a, r, c, .element⟩

/-- The registers of block SYS (R425). -/
def regsSys : List RegFam := [
  -- SYS_STAT: IDLE CHG_REJ READY SAFE WARM STAGED WM
  ⟨0, 0x0, 1, 1, 1, [fldE 15 15 .ro 1 .none, fldE 14 14 .w1c 0 .none, fldE 13 13 .ro 0 .none, fldE 12 10 .ro 0 .none, fldE 9 9 .ro 0 .none, fldE 8 8 .ro 0 .none, fldE 4 0 .ro 0 .none]⟩,
  -- SYS_RSTCAUSE: CAUSE
  ⟨0, 0x1, 1, 1, 1, [fldE 3 0 .ro 1 .none]⟩,
  -- SYS_RST: WARM COLD
  ⟨0, 0x2, 1, 1, 1, [fldE 15 15 .wo 0 .any, fldE 14 14 .wo 0 .any]⟩,
  -- SYS_WMCTL: CLR
  ⟨0, 0x3, 1, 1, 1, [fldE 15 15 .wo 0 .any]⟩,
  -- SYS_CALCTRL: SAVE FACTORY
  ⟨0, 0x4, 1, 1, 1, [fldE 15 15 .wo 0 .idle, fldE 14 14 .wo 0 .idle]⟩,
  -- SYS_LGAIN: GAIN
  ⟨0, 0x5, 1, 1, 1, [fldE 15 0 .rw 0x100 .any]⟩,
  -- SYS_PLANCHK: SECTION CODE
  ⟨0, 0x6, 1, 1, 1, [fldE 15 8 .ro 0 .none, fldE 7 0 .ro 0 .none]⟩,
  -- SYS_PLAN: SOURCE FWB SVN
  ⟨0, 0x7, 1, 1, 1, [fldE 15 14 .ro 0 .none, fldE 13 13 .ro 0 .none, fldE 5 0 .ro 0 .none]⟩,
  -- SYS_ID: DEVICE REV
  ⟨0, 0x8, 1, 1, 2, [fldE 31 16 .ro 0x6400 .none, fldE 15 8 .ro 0 .none]⟩,
  -- SYS_FWVER: VERSION
  ⟨0, 0xA, 1, 1, 2, [fldE 31 0 .ro 0 .none]⟩,
  -- SYS_PLANVER: VERSION
  ⟨0, 0xC, 1, 1, 2, [fldE 31 0 .ro 0 .none]⟩,
  -- SYS_CALVER: GEN
  ⟨0, 0xE, 1, 1, 2, [fldE 31 0 .ro 0 .none]⟩,
  -- SYS_TOFS: TOFS
  ⟨0, 0x40, 1, 64, 1, [⟨15, 0, .rw, 0, .any, .render⟩]⟩]

/-- The registers of block HIF (R387). -/
def regsHif : List RegFam := [
  -- HIF_STAT: IDLE CHG_REJ
  ⟨1, 0x0, 1, 1, 1, [fldE 15 15 .ro 1 .none, fldE 14 14 .w1c 0 .none]⟩,
  -- HIF_LINK: UP SPEED WIDTH ASPM
  ⟨1, 0x1, 1, 1, 1, [fldE 15 15 .ro 0 .none, fldE 14 12 .ro 0 .none, fldE 11 8 .ro 0 .none, fldE 7 6 .ro 0 .none]⟩,
  -- HIF_EVCFG: EN VEC
  ⟨1, 0x2, 1, 1, 1, [fldE 15 15 .rw 0 .any, fldE 5 0 .rw 0 .any]⟩,
  -- HIF_TIME: TIME
  ⟨1, 0x4, 1, 1, 4, [fldE 63 0 .ro 0 .none]⟩,
  -- HIF_LOSTCPL: COUNT
  ⟨1, 0x8, 1, 1, 2, [fldE 31 0 .ro 0 .none]⟩,
  -- HIF_BADWR: COUNT
  ⟨1, 0xA, 1, 1, 2, [fldE 31 0 .ro 0 .none]⟩,
  -- HIF_SQ_BASE: BASE
  ⟨1, 0x100, 32, 16, 4, [⟨63, 0, .rw, 0, .any, .enable⟩]⟩,
  -- HIF_SQ_SIZE: SIZE
  ⟨1, 0x104, 32, 16, 1, [⟨12, 0, .rw, 0, .any, .enable⟩]⟩,
  -- HIF_CQ_SIZE: SIZE
  ⟨1, 0x105, 32, 16, 1, [⟨12, 0, .rw, 0, .any, .enable⟩]⟩,
  -- HIF_CQ_BASE: BASE
  ⟨1, 0x108, 32, 16, 4, [⟨63, 0, .rw, 0, .any, .enable⟩]⟩,
  -- HIF_RING_CTRL: EN
  ⟨1, 0x10C, 32, 16, 1, [fldE 15 15 .rw 0 .any]⟩,
  -- HIF_RING_STAT: ERR ERRCODE
  ⟨1, 0x10D, 32, 16, 1, [fldE 15 15 .ro 0 .none, fldE 3 0 .ro 0 .none]⟩,
  -- HIF_CQ_IRQ: EN VEC THR TIME
  ⟨1, 0x10E, 32, 16, 1, [fldE 15 15 .rw 0 .any, fldE 13 8 .rw 0 .any, fldE 7 4 .rw 0 .any, fldE 3 0 .rw 0 .any]⟩,
  -- HIF_RING_PERM: QUEUE PERMS
  ⟨1, 0x10F, 32, 16, 1, [fldE 11 8 .rw 0 .plan, fldE 3 0 .rw 0 .plan]⟩,
  -- HIF_SQ_TAIL: TAIL
  ⟨1, 0x110, 32, 16, 1, [fldE 11 0 .rw 0 .any]⟩,
  -- HIF_CQ_HEAD: HEAD
  ⟨1, 0x111, 32, 16, 1, [fldE 11 0 .rw 0 .any]⟩,
  -- HIF_SQ_HEAD: HEAD
  ⟨1, 0x112, 32, 16, 1, [fldE 11 0 .ro 0 .none]⟩,
  -- HIF_CQ_TAIL: TAIL
  ⟨1, 0x113, 32, 16, 1, [fldE 11 0 .ro 0 .none]⟩,
  -- HIF_RING_OUT: COUNT
  ⟨1, 0x114, 32, 16, 1, [fldE 12 0 .ro 0 .none]⟩]

/-- The registers of block VE (R97 to R99). -/
def regsVe : List RegFam := [
  -- VE_STAT: IDLE CHG_REJ ACTIVE SPARES
  ⟨2, 0x0, 1, 1, 1, [fldE 15 15 .ro 1 .none, fldE 14 14 .w1c 0 .none, fldE 13 8 .ro 0x20 .none, fldE 7 6 .ro 2 .none]⟩,
  -- VE_PIPE_ACT: ACT
  ⟨2, 0x2, 1, 1, 3, [fldE 33 0 .ro 0xFFFFFFFF .none]⟩,
  -- VE_PIPE_RET: RET
  ⟨2, 0x5, 1, 1, 3, [fldE 33 0 .ro 0 .none]⟩,
  -- VE_CMD_COUNT: COUNT
  ⟨2, 0x8, 1, 1, 2, [fldE 31 0 .ro 0 .none]⟩,
  -- VE_CREC_LOST: COUNT
  ⟨2, 0xA, 1, 1, 1, [fldE 15 0 .ro 0 .none]⟩,
  -- VE_DPART: FIRST
  ⟨2, 0x11, 1, 3, 1, [fldE 11 0 .rw 0xFFF .plan]⟩,
  -- VE_QBIND0: ENABLE STOP_ON_FAULT RING CLASS WINMASK
  ⟨2, 0x100, 1, 1, 2, [fldE 31 31 .rw 1 .plan, fldE 30 30 .rw 0 .plan, fldE 29 28 .rw 0 .plan, fldE 27 26 .rw 2 .plan, fldE 15 0 .rw 1 .plan]⟩,
  -- VE_QBIND: ENABLE STOP_ON_FAULT RING CLASS WINMASK
  ⟨2, 0x104, 4, 15, 2, [fldE 31 31 .rw 0 .plan, fldE 30 30 .rw 0 .plan, fldE 29 28 .rw 0 .plan, fldE 27 26 .rw 2 .plan, fldE 15 0 .rw 0 .plan]⟩,
  -- VE_QSTAT: RUNNING STOPPED PAUSED FLUSHING DEPTH
  ⟨2, 0x102, 4, 16, 1, [fldE 15 15 .ro 0 .none, fldE 14 14 .ro 0 .none, fldE 13 13 .ro 0 .none, fldE 12 12 .ro 0 .none, fldE 8 0 .ro 0 .none]⟩,
  -- VE_QCTRL: FLUSH RESTART PAUSE
  ⟨2, 0x103, 4, 16, 1, [⟨15, 15, .wo, 0, .any, .segment⟩, ⟨14, 14, .wo, 0, .any, .segment⟩, ⟨13, 13, .rw, 0, .any, .segment⟩]⟩,
  -- VE_QCBASE: BASE
  ⟨2, 0x140, 4, 16, 3, [fldE 35 0 .rw 0 .plan]⟩,
  -- VE_WIN0: BASE LIMIT WRITE READ
  ⟨2, 0x200, 1, 1, 8, [fldE 35 0 .rw 0 .plan, fldE 83 48 .rw 0xA3FFFFFFF .plan, fldE 97 97 .rw 1 .plan, fldE 96 96 .rw 1 .plan]⟩,
  -- VE_WIN: BASE LIMIT WRITE READ
  ⟨2, 0x208, 8, 15, 8, [fldE 35 0 .rw 0 .plan, fldE 83 48 .rw 0 .plan, fldE 97 97 .rw 0 .plan, fldE 96 96 .rw 0 .plan]⟩,
  -- VE_PATTERN: SLOT
  ⟨2, 0x4100, 16, 48, 16, [fldE 255 0 .rw 0 .plan]⟩,
  -- VE_DESC: DESC
  ⟨2, 0x8000, 8, 4096, 8, [⟨127, 0, .rw, 0, .any, .segment⟩]⟩]

/-- The registers of block WF (R164). -/
def regsWf : List RegFam := [
  -- WF_STAT: IDLE CHG_REJ B0_BUSY B1_BUSY LOADING SETS
  ⟨3, 0x0, 1, 1, 1, [fldE 15 15 .ro 1 .none, fldE 14 14 .w1c 0 .none, fldE 13 13 .ro 0 .none, fldE 12 12 .ro 0 .none, fldE 11 11 .ro 0 .none, fldE 6 0 .ro 0 .none]⟩,
  -- WF_INV: CO
  ⟨3, 0x1, 1, 1, 1, [fldE 15 0 .rw 0 .plan]⟩,
  -- WF_TDEFAULT: TEMP
  ⟨3, 0x2, 1, 1, 1, [⟨15, 0, .rw, 0x190, .any, .render⟩]⟩,
  -- WF_TSTALE: SEC
  ⟨3, 0x3, 1, 1, 1, [⟨15, 0, .rw, 0x3C, .any, .render⟩]⟩,
  -- WF_SLOTS: BUSY
  ⟨3, 0x4, 1, 1, 1, [fldE 15 0 .ro 0 .none]⟩,
  -- WF_BUILDS: COUNT
  ⟨3, 0x8, 1, 1, 2, [fldE 31 0 .ro 0 .none]⟩,
  -- WF_FAULT: PORT PAIR MODE TBAND ABAND CODE
  ⟨3, 0xC, 1, 1, 4, [fldE 53 48 .ro 0 .none, fldE 41 32 .ro 0 .none, fldE 31 28 .ro 0 .none, fldE 27 24 .ro 0 .none, fldE 23 22 .ro 0 .none, fldE 7 0 .ro 0 .none]⟩,
  -- WF_RES_USED: WORDS
  ⟨3, 0x10, 1, 1, 2, [fldE 24 0 .ro 0 .none]⟩,
  -- WF_SLATE: VALID STALE_T SET TBAND ABAND
  ⟨3, 0x40, 1, 64, 1, [fldE 15 15 .ro 0 .none, fldE 14 14 .ro 0 .none, fldE 13 8 .ro 0 .none, fldE 7 4 .ro 0 .none, fldE 3 2 .ro 0 .none]⟩]

/-- The registers of block DSP (R197). -/
def regsDsp : List RegFam := [
  -- DSP_STAT: IDLE CHG_REJ BLANK YIELDING OPEN
  ⟨4, 0x0, 1, 1, 1, [fldE 15 15 .ro 1 .none, fldE 14 14 .w1c 0 .none, fldE 13 13 .ro 0 .none, fldE 12 12 .ro 0 .none, fldE 9 0 .ro 0 .none]⟩,
  -- DSP_CAP: WATTS
  ⟨4, 0x1, 1, 1, 1, [fldE 6 0 .rw 0x78 .any]⟩,
  -- DSP_DEPTH: TOLLS
  ⟨4, 0x2, 1, 1, 1, [fldE 15 0 .rw 0x1388 .plan]⟩,
  -- DSP_LEAD: US
  ⟨4, 0x3, 1, 1, 1, [⟨15, 0, .rw, 0x1F4, .any, .frame⟩]⟩,
  -- DSP_COEF: VECOEF LOSSF
  ⟨4, 0x4, 1, 1, 1, [fldE 15 8 .rw 4 .plan, fldE 7 0 .rw 8 .plan]⟩,
  -- DSP_POLICY: YIELD HEATWIN
  ⟨4, 0x5, 1, 1, 1, [fldE 15 15 .rw 1 .plan, fldE 9 0 .rw 0x64 .plan]⟩,
  -- DSP_STARVE: MS
  ⟨4, 0x6, 1, 1, 1, [⟨15, 0, .rw, 0x7D0, .any, .frame⟩]⟩,
  -- DSP_LOSTWAIT: MS
  ⟨4, 0x7, 1, 1, 1, [⟨15, 0, .rw, 0x7D0, .any, .frame⟩]⟩,
  -- DSP_EBUCKET: UJ
  ⟨4, 0x8, 1, 1, 2, [fldE 31 0 .ro 0x4C4B40 .none]⟩,
  -- DSP_HBUCKET: UJ
  ⟨4, 0xA, 1, 1, 2, [fldE 31 0 .ro 0x4C4B40 .none]⟩,
  -- DSP_ISSUED: UJ
  ⟨4, 0xC, 1, 1, 3, [fldE 47 0 .ro 0x4C4B40 .none]⟩,
  -- DSP_HELD: UJ
  ⟨4, 0x10, 1, 1, 3, [fldE 47 0 .ro 0 .none]⟩,
  -- DSP_SPENT: UJ
  ⟨4, 0x14, 1, 1, 3, [fldE 47 0 .ro 0 .none]⟩,
  -- DSP_AUDIT: FAIL
  ⟨4, 0x18, 1, 1, 1, [fldE 15 15 .w1c 0 .none]⟩,
  -- DSP_WAITING: COUNT
  ⟨4, 0x19, 1, 1, 1, [fldE 10 0 .ro 0 .none]⟩,
  -- DSP_CO_STAT: HOLDOFF ONE_LANE RATE
  ⟨4, 0x40, 8, 8, 1, [fldE 15 15 .ro 0 .none, fldE 14 14 .ro 0 .none, fldE 13 7 .ro 0 .none]⟩,
  -- DSP_CO_CFG: NOMRATE RAILW
  ⟨4, 0x41, 8, 8, 1, [fldE 14 8 .rw 0 .plan, fldE 4 0 .rw 0x10 .plan]⟩,
  -- DSP_CO_RAILB: UJ
  ⟨4, 0x42, 8, 8, 2, [fldE 31 0 .ro 0x186A00 .none]⟩,
  -- DSP_CO_STR: PERMILLE
  ⟨4, 0x44, 8, 8, 1, [fldE 15 0 .ro 0 .none]⟩,
  -- DSP_CO_FRAMES: COUNT
  ⟨4, 0x46, 8, 8, 2, [fldE 31 0 .ro 0 .none]⟩]

/-- The registers of block MEM (R61). -/
def regsMem : List RegFam := [
  -- MEM_STAT: IDLE CHG_REJ MIGRATING VS_COPY SS_READY HBM_READY VS_READY VS_SPARES_FREE
  ⟨5, 0x0, 1, 1, 1, [fldE 15 15 .ro 1 .none, fldE 14 14 .w1c 0 .none, fldE 13 13 .ro 0 .none, fldE 12 12 .ro 0 .none, fldE 11 11 .ro 0 .none, fldE 10 10 .ro 0 .none, fldE 9 9 .ro 0 .none, fldE 4 0 .ro 0x10 .none]⟩,
  -- MEM_HASH: HASH
  ⟨5, 0x1, 1, 1, 1, [fldE 1 0 .rw 0 .plan]⟩,
  -- MEM_HBM_PC: VALID PENDING PC
  ⟨5, 0x2, 1, 1, 1, [fldE 15 15 .ro 0 .none, fldE 14 14 .ro 0 .none, fldE 5 0 .ro 0 .none]⟩,
  -- MEM_SCRUB: HBM_HOURS VS_SEC
  ⟨5, 0x4, 1, 1, 1, [fldE 15 8 .rw 0x18 .any, fldE 7 0 .rw 0xA .any]⟩,
  -- MEM_CE_LIMIT: HBM_PC VS_BANK
  ⟨5, 0x5, 1, 1, 1, [fldE 15 8 .rw 0x40 .any, fldE 7 0 .rw 0x10 .any]⟩,
  -- MEM_SS_CFG: CHANNELS DEVS CAPACITY FAULTY
  ⟨5, 0x8, 1, 1, 1, [fldE 13 12 .ro 0 .none, fldE 11 11 .ro 0 .none, fldE 10 8 .ro 0 .none, fldE 3 0 .ro 0 .none]⟩,
  -- MEM_VS_MAP: IN_USE BANK
  ⟨5, 0x10, 1, 16, 1, [fldE 15 15 .ro 0 .none, fldE 9 0 .ro 0 .none]⟩,
  -- MEM_CE_COUNT: COUNT
  ⟨5, 0x20, 1, 1, 2, [fldE 31 0 .ro 0 .none]⟩,
  -- MEM_UE_COUNT: COUNT
  ⟨5, 0x22, 1, 1, 2, [fldE 31 0 .ro 0 .none]⟩]

/-- The registers of block SL (R316). -/
def regsSl : List RegFam := [
  -- SL_STAT: IDLE CHG_REJ ACTIVE
  ⟨6, 0x0, 1, 1, 1, [fldE 15 15 .ro 1 .none, fldE 14 14 .w1c 0 .none, fldE 6 0 .ro 0 .none]⟩,
  -- SL_CFG: TREPLAY LERRMAX
  ⟨6, 0x1, 1, 1, 1, [⟨15, 8, .rw, 0x1E, .any, .frame⟩, ⟨7, 0, .rw, 0x10, .any, .frame⟩]⟩,
  -- SL_TXCFG: SWING DEEMPH
  ⟨6, 0x2, 1, 1, 1, [fldE 3 2 .rw 1 .plan, fldE 1 0 .rw 1 .plan]⟩,
  -- SL_LIFEPER: MIN
  ⟨6, 0x3, 1, 1, 1, [fldE 7 0 .rw 0x3C .any]⟩,
  -- SL_ACTIVE: PORTS
  ⟨6, 0x4, 1, 1, 4, [fldE 63 0 .ro 0 .none]⟩,
  -- SL_ONELANE: PORTS
  ⟨6, 0x8, 1, 1, 4, [fldE 63 0 .ro 0 .none]⟩,
  -- SL_PSTAT: STATE D0_OK D1_OK U_OK ONE_LANE DRIVABLE LIFE_WARN EXPIRED FRAME_OPEN
  ⟨6, 0x100, 32, 64, 1, [fldE 15 13 .ro 0 .none, fldE 12 12 .ro 0 .none, fldE 11 11 .ro 0 .none, fldE 10 10 .ro 0 .none, fldE 9 9 .ro 0 .none, fldE 8 8 .ro 0 .none, fldE 7 7 .ro 0 .none, fldE 6 6 .ro 0 .none, fldE 5 5 .ro 0 .none]⟩,
  -- SL_PCTRL: RETRAIN LIFEW
  ⟨6, 0x101, 32, 64, 1, [fldE 15 15 .wo 0 .any, fldE 14 14 .wo 0 .any]⟩,
  -- SL_PCFG: EN COURSE AUTHPOL
  ⟨6, 0x102, 32, 64, 1, [fldE 15 15 .rw 0 .plan, fldE 14 12 .rw 0 .plan, fldE 11 10 .rw 2 .plan]⟩,
  -- SL_BUF: B
  ⟨6, 0x103, 32, 64, 1, [fldE 8 0 .ro 0 .none]⟩,
  -- SL_NEXT: N
  ⟨6, 0x104, 32, 64, 1, [fldE 15 0 .ro 0 .none]⟩,
  -- SL_ACKED: N
  ⟨6, 0x105, 32, 64, 1, [fldE 15 0 .ro 0 .none]⟩,
  -- SL_DONE: N
  ⟨6, 0x106, 32, 64, 1, [fldE 15 0 .ro 0 .none]⟩,
  -- SL_LIMIT: N
  ⟨6, 0x107, 32, 64, 1, [fldE 15 0 .ro 0 .none]⟩,
  -- SL_STR: US
  ⟨6, 0x108, 32, 64, 1, [fldE 15 0 .ro 0 .none]⟩,
  -- SL_TEMP: TEMP
  ⟨6, 0x109, 32, 64, 1, [fldE 15 0 .ro 0 .none]⟩,
  -- SL_TAGE: SEC
  ⟨6, 0x10A, 32, 64, 1, [fldE 15 0 .ro 0xFFFF .none]⟩,
  -- SL_LIFE: PERMILLE
  ⟨6, 0x10B, 32, 64, 1, [fldE 15 0 .ro 0 .none]⟩,
  -- SL_REC: AUTH REC
  ⟨6, 0x10C, 32, 64, 1, [fldE 7 4 .ro 0 .none, fldE 3 0 .ro 0 .none]⟩,
  -- SL_BOOT: BOOTCNT
  ⟨6, 0x10D, 32, 64, 1, [fldE 7 0 .ro 0 .none]⟩,
  -- SL_RTT: NS
  ⟨6, 0x10E, 32, 64, 1, [fldE 15 0 .ro 0 .none]⟩,
  -- SL_REPLAY: N
  ⟨6, 0x110, 32, 64, 2, [fldE 31 0 .ro 0 .none]⟩,
  -- SL_CRCERR: N
  ⟨6, 0x112, 32, 64, 2, [fldE 31 0 .ro 0 .none]⟩,
  -- SL_PROTO: N
  ⟨6, 0x114, 32, 64, 2, [fldE 31 0 .ro 0 .none]⟩,
  -- SL_SERIAL: N
  ⟨6, 0x118, 32, 64, 4, [fldE 63 0 .ro 0 .none]⟩]

/-- The registers of block RL (R343). -/
def regsRl : List RegFam := [
  -- RL_STAT: IDLE CHG_REJ VINF PFAIL UP
  ⟨7, 0x0, 1, 1, 1, [fldE 15 15 .ro 1 .none, fldE 14 14 .w1c 0 .none, fldE 13 13 .ro 0 .none, fldE 12 12 .ro 0 .none, fldE 7 0 .ro 0 .none]⟩,
  -- RL_SEQ_CTRL: OFF ON
  ⟨7, 0x1, 1, 1, 1, [fldE 15 8 .wo 0 .any, fldE 7 0 .wo 0 .any]⟩,
  -- RL_VIN: VIN
  ⟨7, 0x2, 1, 1, 1, [fldE 8 0 .ro 0 .none]⟩,
  -- RL_VINCFG: PFEN THR
  ⟨7, 0x3, 1, 1, 1, [fldE 15 15 .rw 0 .plan, fldE 6 0 .rw 0xA .plan]⟩,
  -- RL_LOOPCFG: CRSOFF
  ⟨7, 0x4, 1, 1, 1, [fldE 15 15 .rw 1 .plan]⟩,
  -- RL_LOOPTHR: WARN OPEN
  ⟨7, 0x5, 1, 1, 1, [fldE 15 8 .rw 0x40 .plan, fldE 7 0 .rw 0xA0 .plan]⟩,
  -- RL_LIGHTCFG: PWMF
  ⟨7, 0x6, 1, 1, 1, [fldE 1 0 .rw 1 .plan]⟩,
  -- RL_TEMP: T
  ⟨7, 0x7, 1, 1, 1, [fldE 15 0 .ro 0 .none]⟩,
  -- RL_LOOPCRACK: CRACK
  ⟨7, 0x8, 1, 1, 4, [fldE 63 0 .w1c 0 .none]⟩,
  -- RL_LOOPMASK: MASK
  ⟨7, 0xC, 1, 1, 4, [fldE 63 0 .rw 0 .any]⟩,
  -- RL_CO_STAT: STATE KNOWN LIT CRACK DOZEUP
  ⟨7, 0x40, 16, 8, 1, [fldE 15 13 .ro 0 .none, fldE 12 12 .ro 0 .none, fldE 11 11 .ro 0 .none, fldE 10 10 .ro 0 .none, fldE 9 9 .ro 0 .none]⟩,
  -- RL_CO_CFG: KEEP RETRY IDLEOFF
  ⟨7, 0x41, 16, 8, 1, [fldE 15 15 .rw 1 .plan, fldE 14 12 .rw 3 .plan, fldE 11 0 .rw 0 .plan]⟩,
  -- RL_CO_VGH: VOLT
  ⟨7, 0x42, 16, 8, 1, [fldE 8 0 .rw 0 .plan]⟩,
  -- RL_CO_VGL: VOLT
  ⟨7, 0x43, 16, 8, 1, [fldE 8 0 .rw 0 .plan]⟩,
  -- RL_CO_VSH: VOLT
  ⟨7, 0x44, 16, 8, 1, [fldE 7 0 .rw 0 .plan]⟩,
  -- RL_CO_VSM: VOLT
  ⟨7, 0x45, 16, 8, 1, [fldE 7 0 .rw 0 .plan]⟩,
  -- RL_CO_VSR: VOLT
  ⟨7, 0x46, 16, 8, 1, [fldE 7 0 .rw 0 .plan]⟩,
  -- RL_CO_VCOM: VOLT
  ⟨7, 0x47, 16, 8, 1, [fldE 9 0 .rw 0 .plan]⟩,
  -- RL_CO_ILIM: ILIMH ILIMM ILIMS
  ⟨7, 0x48, 16, 8, 1, [fldE 11 8 .rw 0xF .plan, fldE 7 4 .rw 0xF .plan, fldE 3 0 .rw 0xF .plan]⟩,
  -- RL_CO_UTRIM1: TRIMH TRIMM
  ⟨7, 0x49, 16, 8, 1, [⟨15, 8, .rw, 0, .any, .milestone⟩, ⟨7, 0, .rw, 0, .any, .milestone⟩]⟩,
  -- RL_CO_UTRIM2: TRIMS VOFS
  ⟨7, 0x4A, 16, 8, 1, [⟨15, 8, .rw, 0, .any, .milestone⟩, ⟨7, 0, .rw, 0, .any, .milestone⟩]⟩,
  -- RL_CO_LIGHT: EN DUTY
  ⟨7, 0x4B, 16, 8, 1, [fldE 15 15 .rw 0 .any, fldE 11 0 .rw 0 .any]⟩,
  -- RL_CO_FAULT: CAUSE RAIL COUNT
  ⟨7, 0x4C, 16, 8, 1, [fldE 15 12 .ro 0 .none, fldE 11 8 .ro 0 .none, fldE 7 0 .ro 0 .none]⟩,
  -- RL_CO_EFRAME: UJ
  ⟨7, 0x4E, 16, 8, 2, [fldE 31 0 .ro 0 .none]⟩,
  -- RL_LOOP: BAND OHMS
  ⟨7, 0x200, 1, 64, 1, [fldE 15 14 .ro 0 .none, fldE 12 0 .ro 0 .none]⟩]

/-- The registers of block PM (R361). -/
def regsPm : List RegFam := [
  -- PM_STAT: IDLE CHG_REJ STATE THROTTLE STOPPING KEPT
  ⟨8, 0x0, 1, 1, 1, [fldE 15 15 .ro 1 .none, fldE 14 14 .w1c 0 .none, fldE 13 11 .ro 4 .none, fldE 10 10 .ro 0 .none, fldE 9 9 .ro 0 .none, fldE 8 8 .ro 0 .none]⟩,
  -- PM_AUTO: IDLEUS DOZESEC
  ⟨8, 0x1, 1, 1, 1, [fldE 15 10 .rw 0x32 .any, fldE 9 0 .rw 0 .any]⟩,
  -- PM_THERM: TLIM GAIN
  ⟨8, 0x2, 1, 1, 1, [fldE 15 8 .rw 0x5A .plan, fldE 7 0 .rw 4 .plan]⟩,
  -- PM_HBASE: W
  ⟨8, 0x3, 1, 1, 1, [fldE 6 0 .rw 0x28 .plan]⟩,
  -- PM_TRIP: HOLDOFF TRIES COOLSEC
  ⟨8, 0x4, 1, 1, 1, [fldE 15 15 .rw 0 .plan, fldE 14 12 .rw 3 .plan, fldE 11 0 .rw 0x3C .plan]⟩,
  -- PM_TMAX: T
  ⟨8, 0x5, 1, 1, 1, [fldE 15 0 .ro 0 .none]⟩,
  -- PM_HRATE: W
  ⟨8, 0x6, 1, 1, 1, [fldE 6 0 .ro 0 .none]⟩,
  -- PM_PIN: DW
  ⟨8, 0x7, 1, 1, 1, [fldE 15 0 .ro 0 .none]⟩,
  -- PM_TEMP: T
  ⟨8, 0x10, 1, 24, 1, [fldE 15 0 .ro 0 .none]⟩,
  -- PM_HBMT: T
  ⟨8, 0x28, 1, 2, 1, [fldE 15 0 .ro 0 .none]⟩]

/-- The registers of block AON (R362). -/
def regsAon : List RegFam := [
  -- AON_STAT: IDLE CHG_REJ XTALF CALERR KOVF KCOUNT
  ⟨9, 0x0, 1, 1, 1, [fldE 15 15 .ro 1 .none, fldE 14 14 .w1c 0 .none, fldE 13 13 .ro 0 .none, fldE 12 12 .w1c 0 .none, fldE 11 11 .w1c 0 .none, fldE 4 0 .ro 0 .none]⟩,
  -- AON_WAKEEN: EN
  ⟨9, 0x1, 1, 1, 1, [fldE 7 0 .rw 0xFF .any]⟩,
  -- AON_WAKESRC: SRC
  ⟨9, 0x2, 1, 1, 1, [fldE 7 0 .w1c 0 .none]⟩,
  -- AON_CALTRIM: PPM
  ⟨9, 0x3, 1, 1, 1, [fldE 7 0 .rw 0 .any]⟩,
  -- AON_TICK: TICK
  ⟨9, 0x4, 1, 1, 3, [fldE 47 0 .ro 0 .none]⟩,
  -- AON_CAL: MIN SEC DAY HOUR YEAR MONTH WDAY
  ⟨9, 0x8, 1, 1, 4, [fldE 15 8 .rw 0 .any, fldE 7 0 .rw 0 .any, fldE 31 24 .rw 1 .any, fldE 23 16 .rw 0 .any, fldE 47 40 .rw 0 .any, fldE 39 32 .rw 1 .any, fldE 50 48 .rw 6 .any]⟩,
  -- AON_ALARM: FIELDS EN WDAY
  ⟨9, 0xC, 1, 1, 4, [fldE 47 0 .rw 0xFFFFFFFFFFFF .any, fldE 63 63 .rw 0 .any, fldE 50 48 .rw 0 .any]⟩,
  -- AON_WT: COUNT
  ⟨9, 0x10, 2, 2, 2, [fldE 31 0 .rw 0 .any]⟩,
  -- AON_KEYCFG: RATE
  ⟨9, 0x14, 1, 1, 1, [fldE 7 4 .rw 1 .any]⟩,
  -- AON_KEYFIFO: VALID PRESS KEY SCAN
  ⟨9, 0x15, 1, 1, 1, [fldE 15 15 .ro 0 .none, fldE 14 14 .ro 0 .none, fldE 13 8 .ro 0 .none, fldE 7 0 .ro 0 .none]⟩,
  -- AON_KEYS: DOWN
  ⟨9, 0x18, 1, 1, 4, [fldE 63 0 .ro 0 .none]⟩,
  -- AON_KEYWAKE: MASK
  ⟨9, 0x1C, 1, 1, 4, [fldE 63 0 .rw 0 .any]⟩,
  -- AON_AINCFG: PER EN
  ⟨9, 0x20, 1, 1, 1, [fldE 15 8 .rw 0xA .any, fldE 3 0 .rw 3 .any]⟩,
  -- AON_AIN: CODE
  ⟨9, 0x24, 1, 4, 1, [fldE 9 0 .ro 0 .none]⟩,
  -- AON_AINLO: CODE
  ⟨9, 0x28, 2, 4, 1, [fldE 9 0 .rw 0 .any]⟩,
  -- AON_AINHI: CODE
  ⟨9, 0x29, 2, 4, 1, [fldE 9 0 .rw 0x3FF .any]⟩]

/-- The registers of block CCX (R230 and R284). -/
def regsCcx : List RegFam := [
  -- CCX_STAT: IDLE CHG_REJ SPARE ACTIVE
  ⟨10, 0x0, 1, 1, 1, [fldE 15 15 .ro 1 .none, fldE 14 14 .w1c 0 .none, fldE 13 13 .ro 0 .none, fldE 4 0 .ro 0 .none]⟩,
  -- CCX_CORE: RETIRED RUNNING HALTED ROLE
  ⟨10, 0x10, 1, 17, 1, [fldE 15 15 .ro 0 .none, fldE 14 14 .ro 0 .none, fldE 13 13 .ro 0 .none, fldE 4 0 .ro 0 .none]⟩,
  -- CCX_MDE: DE
  ⟨10, 0x1000, 2, 16, 2, [fldE 31 0 .rw 0 .plan]⟩,
  -- CCX_MSTEP: STEP
  ⟨10, 0x1100, 2, 512, 2, [fldE 31 0 .rw 0 .plan]⟩]

/-- The registers of block RAS (R447). -/
def regsRas : List RegFam := [
  -- RAS_STAT: IDLE CHG_REJ MOVING LATE0 EQDEPTH
  ⟨11, 0x0, 1, 1, 1, [fldE 15 15 .ro 1 .none, fldE 14 14 .w1c 0 .none, fldE 13 13 .ro 0 .none, fldE 12 12 .ro 0 .none, fldE 6 0 .ro 0 .none]⟩,
  -- RAS_HBCFG: ROLEMS SVCMS
  ⟨11, 0x1, 1, 1, 1, [fldE 15 8 .rw 0xA .any, fldE 7 0 .rw 0xA .any]⟩,
  -- RAS_MOVE: GO ROLE
  ⟨11, 0x2, 1, 1, 1, [fldE 15 15 .wo 0 .idle, fldE 4 0 .wo 0 .idle]⟩,
  -- RAS_AUDIT: CHARGE CREDIT TOLL REQUEST
  ⟨11, 0x3, 1, 1, 1, [fldE 3 3 .w1c 0 .none, fldE 2 2 .w1c 0 .none, fldE 1 1 .w1c 0 .none, fldE 0 0 .w1c 0 .none]⟩,
  -- RAS_CTRL: EVCLR
  ⟨11, 0x4, 1, 1, 1, [fldE 15 15 .wo 0 .any]⟩,
  -- RAS_EVSEQ: COUNT
  ⟨11, 0x6, 1, 1, 2, [fldE 31 0 .ro 0 .none]⟩,
  -- RAS_EVBASE: COUNT
  ⟨11, 0x8, 1, 1, 2, [fldE 31 0 .ro 0 .none]⟩,
  -- RAS_EVOVW: COUNT
  ⟨11, 0xA, 1, 1, 2, [fldE 31 0 .ro 0 .none]⟩,
  -- RAS_EVLOST: COUNT
  ⟨11, 0xC, 1, 1, 2, [fldE 31 0 .ro 0 .none]⟩,
  -- RAS_EQLOST: COUNT
  ⟨11, 0xE, 1, 1, 2, [fldE 31 0 .ro 0 .none]⟩,
  -- RAS_EQ: ENTRY
  ⟨11, 0x10, 1, 1, 16, [fldE 255 0 .ro 0 .none]⟩,
  -- RAS_EQPOP: POP
  ⟨11, 0x20, 1, 1, 1, [fldE 15 15 .wo 0 .any]⟩,
  -- RAS_REPLAYS: COUNT
  ⟨11, 0x22, 1, 1, 2, [fldE 31 0 .ro 0 .none]⟩,
  -- RAS_HB: LATE MS
  ⟨11, 0x40, 1, 16, 1, [fldE 15 15 .ro 0 .none, fldE 14 0 .ro 0 .none]⟩,
  -- RAS_PIPEERR: HARD E24 TOTAL
  ⟨11, 0x80, 1, 34, 1, [fldE 15 15 .ro 0 .none, fldE 11 8 .ro 0 .none, fldE 7 0 .ro 0 .none]⟩,
  -- RAS_ACC: COUNT
  ⟨11, 0x100, 8, 16, 2, [fldE 31 0 .ro 0 .none]⟩,
  -- RAS_CPL: COUNT
  ⟨11, 0x102, 8, 16, 2, [fldE 31 0 .ro 0 .none]⟩,
  -- RAS_LOST: COUNT
  ⟨11, 0x104, 8, 16, 2, [fldE 31 0 .ro 0 .none]⟩]

/-- The registers of block SEC (R426). -/
def regsSec : List RegFam := [
  -- SEC_STAT: IDLE CHG_REJ BUSY PASS SVNMIN
  ⟨12, 0x0, 1, 1, 1, [fldE 15 15 .ro 1 .none, fldE 14 14 .w1c 0 .none, fldE 13 13 .ro 0 .none, fldE 12 12 .ro 0 .none, fldE 5 0 .ro 0 .none]⟩,
  -- SEC_KEYS: REVOKED FUSED
  ⟨12, 0x1, 1, 1, 1, [fldE 15 8 .ro 0 .none, fldE 7 0 .ro 0 .none]⟩,
  -- SEC_CMD: OP
  ⟨12, 0x2, 1, 1, 1, [fldE 15 12 .wo 0 .any]⟩,
  -- SEC_REVOKE: GO SLOT
  ⟨12, 0x3, 1, 1, 1, [fldE 15 15 .wo 0 .any, fldE 2 0 .wo 0 .any]⟩,
  -- SEC_SRC: ADDR
  ⟨12, 0x4, 1, 1, 3, [fldE 35 0 .rw 0 .any]⟩,
  -- SEC_LEN: BYTES
  ⟨12, 0x8, 1, 1, 2, [fldE 31 0 .rw 0 .any]⟩,
  -- SEC_DST: ADDR
  ⟨12, 0xC, 1, 1, 3, [fldE 35 0 .rw 0 .any]⟩,
  -- SEC_RNG: VALUE
  ⟨12, 0x10, 1, 1, 2, [fldE 31 0 .ro 0 .none]⟩]

/-- The whole register table. -/
def regTable : List RegFam := regsSys ++ regsHif ++ regsVe ++ regsWf ++ regsDsp ++ regsMem ++ regsSl ++ regsRl ++ regsPm ++ regsAon ++ regsCcx ++ regsRas ++ regsSec

/-- The registers of one block. -/
def regsOf (b : Nat) : List RegFam :=
  match b with
  | 0 => regsSys
  | 1 => regsHif
  | 2 => regsVe
  | 3 => regsWf
  | 4 => regsDsp
  | 5 => regsMem
  | 6 => regsSl
  | 7 => regsRl
  | 8 => regsPm
  | 9 => regsAon
  | 10 => regsCcx
  | 11 => regsRas
  | 12 => regsSec
  | _ => []

/-- Whether a family holds the word at an offset: its index and the word within the register. -/
def RegFam.hit (f : RegFam) (off : Nat) : Option (Nat × Nat) :=
  if off < f.off then none else
  let i := (off - f.off) / f.stride
  let w := (off - f.off) % f.stride
  if f.count = 1 then (if off - f.off < f.words then some (0, off - f.off) else none)
  else if i < f.count ∧ w < f.words then some (i, w) else none

/-- The register that holds a word: its family, index and word within it. -/
def findIn : List RegFam → Nat → Option (RegFam × Nat × Nat)
  | [], _ => none
  | f :: r, off => match f.hit off with
    | some (i, w) => some (f, i, w)
    | none => findIn r off

/-- The register that holds the word with a key (block × 0x1_0000 + offset). -/
def findReg (key : Nat) : Option (RegFam × Nat × Nat) := findIn (regsOf (key / 65536)) (key % 65536)

/-- Reset value of a register as one number. -/
def RegFam.resetVal (f : RegFam) : Nat := f.fields.foldl (fun a x => a + (x.reset <<< x.lo)) 0

/-- Reset value of a word of the register file. -/
def regReset (key : Nat) : Word :=
  match findReg key with
  | some (f, _, w) => wd (f.resetVal >>> (16 * w))
  | none => 0

namespace Reg
abbrev SYS_STAT : Nat := 0x0
abbrev SYS_RSTCAUSE : Nat := 0x1
abbrev SYS_RST : Nat := 0x2
abbrev SYS_WMCTL : Nat := 0x3
abbrev SYS_CALCTRL : Nat := 0x4
abbrev SYS_LGAIN : Nat := 0x5
abbrev SYS_PLANCHK : Nat := 0x6
abbrev SYS_PLAN : Nat := 0x7
abbrev SYS_ID : Nat := 0x8
abbrev SYS_FWVER : Nat := 0xA
abbrev SYS_PLANVER : Nat := 0xC
abbrev SYS_CALVER : Nat := 0xE
abbrev SYS_TOFS : Nat := 0x40
abbrev HIF_STAT : Nat := 0x10000
abbrev HIF_LINK : Nat := 0x10001
abbrev HIF_EVCFG : Nat := 0x10002
abbrev HIF_TIME : Nat := 0x10004
abbrev HIF_LOSTCPL : Nat := 0x10008
abbrev HIF_BADWR : Nat := 0x1000A
abbrev HIF_SQ_BASE : Nat := 0x10100
abbrev HIF_SQ_SIZE : Nat := 0x10104
abbrev HIF_CQ_SIZE : Nat := 0x10105
abbrev HIF_CQ_BASE : Nat := 0x10108
abbrev HIF_RING_CTRL : Nat := 0x1010C
abbrev HIF_RING_STAT : Nat := 0x1010D
abbrev HIF_CQ_IRQ : Nat := 0x1010E
abbrev HIF_RING_PERM : Nat := 0x1010F
abbrev HIF_SQ_TAIL : Nat := 0x10110
abbrev HIF_CQ_HEAD : Nat := 0x10111
abbrev HIF_SQ_HEAD : Nat := 0x10112
abbrev HIF_CQ_TAIL : Nat := 0x10113
abbrev HIF_RING_OUT : Nat := 0x10114
abbrev VE_STAT : Nat := 0x20000
abbrev VE_PIPE_ACT : Nat := 0x20002
abbrev VE_PIPE_RET : Nat := 0x20005
abbrev VE_CMD_COUNT : Nat := 0x20008
abbrev VE_CREC_LOST : Nat := 0x2000A
abbrev VE_DPART : Nat := 0x20011
abbrev VE_QBIND0 : Nat := 0x20100
abbrev VE_QBIND : Nat := 0x20104
abbrev VE_QSTAT : Nat := 0x20102
abbrev VE_QCTRL : Nat := 0x20103
abbrev VE_QCBASE : Nat := 0x20140
abbrev VE_WIN0 : Nat := 0x20200
abbrev VE_WIN : Nat := 0x20208
abbrev VE_PATTERN : Nat := 0x24100
abbrev VE_DESC : Nat := 0x28000
abbrev WF_STAT : Nat := 0x30000
abbrev WF_INV : Nat := 0x30001
abbrev WF_TDEFAULT : Nat := 0x30002
abbrev WF_TSTALE : Nat := 0x30003
abbrev WF_SLOTS : Nat := 0x30004
abbrev WF_BUILDS : Nat := 0x30008
abbrev WF_FAULT : Nat := 0x3000C
abbrev WF_RES_USED : Nat := 0x30010
abbrev WF_SLATE : Nat := 0x30040
abbrev DSP_STAT : Nat := 0x40000
abbrev DSP_CAP : Nat := 0x40001
abbrev DSP_DEPTH : Nat := 0x40002
abbrev DSP_LEAD : Nat := 0x40003
abbrev DSP_COEF : Nat := 0x40004
abbrev DSP_POLICY : Nat := 0x40005
abbrev DSP_STARVE : Nat := 0x40006
abbrev DSP_LOSTWAIT : Nat := 0x40007
abbrev DSP_EBUCKET : Nat := 0x40008
abbrev DSP_HBUCKET : Nat := 0x4000A
abbrev DSP_ISSUED : Nat := 0x4000C
abbrev DSP_HELD : Nat := 0x40010
abbrev DSP_SPENT : Nat := 0x40014
abbrev DSP_AUDIT : Nat := 0x40018
abbrev DSP_WAITING : Nat := 0x40019
abbrev DSP_CO_STAT : Nat := 0x40040
abbrev DSP_CO_CFG : Nat := 0x40041
abbrev DSP_CO_RAILB : Nat := 0x40042
abbrev DSP_CO_STR : Nat := 0x40044
abbrev DSP_CO_FRAMES : Nat := 0x40046
abbrev MEM_STAT : Nat := 0x50000
abbrev MEM_HASH : Nat := 0x50001
abbrev MEM_HBM_PC : Nat := 0x50002
abbrev MEM_SCRUB : Nat := 0x50004
abbrev MEM_CE_LIMIT : Nat := 0x50005
abbrev MEM_SS_CFG : Nat := 0x50008
abbrev MEM_VS_MAP : Nat := 0x50010
abbrev MEM_CE_COUNT : Nat := 0x50020
abbrev MEM_UE_COUNT : Nat := 0x50022
abbrev SL_STAT : Nat := 0x60000
abbrev SL_CFG : Nat := 0x60001
abbrev SL_TXCFG : Nat := 0x60002
abbrev SL_LIFEPER : Nat := 0x60003
abbrev SL_ACTIVE : Nat := 0x60004
abbrev SL_ONELANE : Nat := 0x60008
abbrev SL_PSTAT : Nat := 0x60100
abbrev SL_PCTRL : Nat := 0x60101
abbrev SL_PCFG : Nat := 0x60102
abbrev SL_BUF : Nat := 0x60103
abbrev SL_NEXT : Nat := 0x60104
abbrev SL_ACKED : Nat := 0x60105
abbrev SL_DONE : Nat := 0x60106
abbrev SL_LIMIT : Nat := 0x60107
abbrev SL_STR : Nat := 0x60108
abbrev SL_TEMP : Nat := 0x60109
abbrev SL_TAGE : Nat := 0x6010A
abbrev SL_LIFE : Nat := 0x6010B
abbrev SL_REC : Nat := 0x6010C
abbrev SL_BOOT : Nat := 0x6010D
abbrev SL_RTT : Nat := 0x6010E
abbrev SL_REPLAY : Nat := 0x60110
abbrev SL_CRCERR : Nat := 0x60112
abbrev SL_PROTO : Nat := 0x60114
abbrev SL_SERIAL : Nat := 0x60118
abbrev RL_STAT : Nat := 0x70000
abbrev RL_SEQ_CTRL : Nat := 0x70001
abbrev RL_VIN : Nat := 0x70002
abbrev RL_VINCFG : Nat := 0x70003
abbrev RL_LOOPCFG : Nat := 0x70004
abbrev RL_LOOPTHR : Nat := 0x70005
abbrev RL_LIGHTCFG : Nat := 0x70006
abbrev RL_TEMP : Nat := 0x70007
abbrev RL_LOOPCRACK : Nat := 0x70008
abbrev RL_LOOPMASK : Nat := 0x7000C
abbrev RL_CO_STAT : Nat := 0x70040
abbrev RL_CO_CFG : Nat := 0x70041
abbrev RL_CO_VGH : Nat := 0x70042
abbrev RL_CO_VGL : Nat := 0x70043
abbrev RL_CO_VSH : Nat := 0x70044
abbrev RL_CO_VSM : Nat := 0x70045
abbrev RL_CO_VSR : Nat := 0x70046
abbrev RL_CO_VCOM : Nat := 0x70047
abbrev RL_CO_ILIM : Nat := 0x70048
abbrev RL_CO_UTRIM1 : Nat := 0x70049
abbrev RL_CO_UTRIM2 : Nat := 0x7004A
abbrev RL_CO_LIGHT : Nat := 0x7004B
abbrev RL_CO_FAULT : Nat := 0x7004C
abbrev RL_CO_EFRAME : Nat := 0x7004E
abbrev RL_LOOP : Nat := 0x70200
abbrev PM_STAT : Nat := 0x80000
abbrev PM_AUTO : Nat := 0x80001
abbrev PM_THERM : Nat := 0x80002
abbrev PM_HBASE : Nat := 0x80003
abbrev PM_TRIP : Nat := 0x80004
abbrev PM_TMAX : Nat := 0x80005
abbrev PM_HRATE : Nat := 0x80006
abbrev PM_PIN : Nat := 0x80007
abbrev PM_TEMP : Nat := 0x80010
abbrev PM_HBMT : Nat := 0x80028
abbrev AON_STAT : Nat := 0x90000
abbrev AON_WAKEEN : Nat := 0x90001
abbrev AON_WAKESRC : Nat := 0x90002
abbrev AON_CALTRIM : Nat := 0x90003
abbrev AON_TICK : Nat := 0x90004
abbrev AON_CAL : Nat := 0x90008
abbrev AON_ALARM : Nat := 0x9000C
abbrev AON_WT : Nat := 0x90010
abbrev AON_KEYCFG : Nat := 0x90014
abbrev AON_KEYFIFO : Nat := 0x90015
abbrev AON_KEYS : Nat := 0x90018
abbrev AON_KEYWAKE : Nat := 0x9001C
abbrev AON_AINCFG : Nat := 0x90020
abbrev AON_AIN : Nat := 0x90024
abbrev AON_AINLO : Nat := 0x90028
abbrev AON_AINHI : Nat := 0x90029
abbrev CCX_STAT : Nat := 0xA0000
abbrev CCX_CORE : Nat := 0xA0010
abbrev CCX_MDE : Nat := 0xA1000
abbrev CCX_MSTEP : Nat := 0xA1100
abbrev RAS_STAT : Nat := 0xB0000
abbrev RAS_HBCFG : Nat := 0xB0001
abbrev RAS_MOVE : Nat := 0xB0002
abbrev RAS_AUDIT : Nat := 0xB0003
abbrev RAS_CTRL : Nat := 0xB0004
abbrev RAS_EVSEQ : Nat := 0xB0006
abbrev RAS_EVBASE : Nat := 0xB0008
abbrev RAS_EVOVW : Nat := 0xB000A
abbrev RAS_EVLOST : Nat := 0xB000C
abbrev RAS_EQLOST : Nat := 0xB000E
abbrev RAS_EQ : Nat := 0xB0010
abbrev RAS_EQPOP : Nat := 0xB0020
abbrev RAS_REPLAYS : Nat := 0xB0022
abbrev RAS_HB : Nat := 0xB0040
abbrev RAS_PIPEERR : Nat := 0xB0080
abbrev RAS_ACC : Nat := 0xB0100
abbrev RAS_CPL : Nat := 0xB0102
abbrev RAS_LOST : Nat := 0xB0104
abbrev SEC_STAT : Nat := 0xC0000
abbrev SEC_KEYS : Nat := 0xC0001
abbrev SEC_CMD : Nat := 0xC0002
abbrev SEC_REVOKE : Nat := 0xC0003
abbrev SEC_SRC : Nat := 0xC0004
abbrev SEC_LEN : Nat := 0xC0008
abbrev SEC_DST : Nat := 0xC000C
abbrev SEC_RNG : Nat := 0xC0010
end Reg

end Sys2Proof.Machine
end

