-- ==== Sys2Proof/Machine/Ops.lean ====
section
/-! DEFINITION. The operations every family shares: register words, the address map and memory, events (R427 to R431), interrupts to roles, and free values. -/
namespace Sys2Proof.Machine
open Sys2Proof

/-- What a command answers. -/
abbrev Out := Host.Outcome State Fault Refusal

/-! Registers -/

/-- The stored word of a register: what was last written (R12), or what the hardware maintains there. -/
def State.regW (s : State) (key : Nat) : Word := wmapGet s.regs.val key (regReset key)

/-- The stored value of a register of `n` words. -/
def State.reg (s : State) (key : Nat) (n : Nat := 1) : Nat := natOfWords ((List.range n).map fun i => s.regW (key + i))

/-- Bits [hi:lo] of the stored value of a register of `n` words. -/
def State.regF (s : State) (key hi lo : Nat) (n : Nat := 1) : Nat := bitsN (s.reg key n) hi lo

/-- Set the stored words of a register. -/
def State.regSet (s : State) (key : Nat) (v : Nat) (n : Nat := 1) : State :=
  { s with regs := { s.regs with val := (List.range n).foldl (fun m i => wmapSet m (key + i) (wd (v >>> (16 * i))) (regReset (key + i))) s.regs.val } }

/-- Set bits [hi:lo] of a register. -/
def State.regSetF (s : State) (key hi lo x : Nat) (n : Nat := 1) : State := s.regSet key (setBitsN (s.reg key n) hi lo x) n

/-- The words held for a register of n words are discarded: it takes a value (R8). -/
def State.dropHeld (s : State) (key n : Nat) : State :=
  { s with regs := { s.regs with held := s.regs.held.filter fun e => e.1 < key || key + n ≤ e.1 } }

/-- A counter register of `n` words increased by 1, saturating at all ones. -/
def State.regSatInc (s : State) (key : Nat) (n : Nat := 2) (by_ : Nat := 1) : State :=
  s.regSet key (satTo (2 ^ (16 * n) - 1) (s.reg key n + by_)) n

/-- A counter register of `n` words increased by 1, wrapping. -/
def State.regWrapInc (s : State) (key : Nat) (n : Nat := 2) : State := s.regSet key ((s.reg key n + 1) % 2 ^ (16 * n)) n

/-- The value in effect of a register whose boundary is not the element (R12). -/
def State.eff (s : State) (key : Nat) (n : Nat := 1) : Nat :=
  natOfWords ((List.range n).map fun i => wmapGet s.regs.eff (key + i) (regReset (key + i)))

/-- The boundary of a register is reached: the last value written takes effect (R12). -/
def State.takeEffect (s : State) (key : Nat) (n : Nat := 1) : State :=
  { s with regs := { s.regs with eff := (List.range n).foldl (fun m i => wmapSet m (key + i) (s.regW (key + i)) (regReset (key + i))) s.regs.eff } }

/-! Updates of one element -/

def State.updCore (s : State) (c : Nat) (f : Core → Core) : State := { s with cores := s.cores.modify c f }
def State.updPort (s : State) (p : Nat) (f : Port → Port) : State := { s with ports := s.ports.modify p f }
def State.updCourse (s : State) (c : Nat) (f : Course → Course) : State := { s with courses := s.courses.modify c f }
def State.updRing (s : State) (r : Nat) (f : Ring → Ring) : State := { s with hif := { s.hif with rings := s.hif.rings.modify r f } }
def State.updQueue (s : State) (q : Nat) (f : VQueue → VQueue) : State := { s with ve := { s.ve with queues := s.ve.queues.modify q f } }
def State.core (s : State) (c : Nat) : Core := s.cores.getD c (Core.reset none)
def State.port (s : State) (p : Nat) : Port := s.ports.getD p Port.reset
def State.course (s : State) (c : Nat) : Course := s.courses.getD c Course.reset
def State.ring (s : State) (r : Nat) : Ring := s.hif.rings.getD r Ring.reset
def State.queue (s : State) (q : Nat) : VQueue := s.ve.queues.getD q VQueue.reset

/-- A free value: the next of the stream Config.freeValue (DESIGN CHOICE, log entry 9). -/
def State.free (s : State) : BitVec 64 × State := (Config.freeValue s.freeCtr, { s with freeCtr := s.freeCtr + 1 })

/-! Address map and memory -/

/-- Where an internal address lies (Table 2.1). -/
inductive Space where
  | hbm | vs
  | localMem (core off : Nat)
  | sram (off : Nat)
  | rom (off : Nat)
  | store (off : Nat)
  | regs (blk off : Nat)
  | unmapped
  deriving DecidableEq, Repr

/-- Words of the fitted state store (Table 2.16); 0 where no channel is usable. -/
def State.ssWords (s : State) : Nat :=
  if s.regF Reg.MEM_SS_CFG 13 12 = 0 then 0 else 2 ^ (27 + s.regF Reg.MEM_SS_CFG 10 8)

/-- The physical core that holds a role: the first core, not retired, whose role it is. -/
def coreOfRole (s : State) (r : Fin 16) : Option Nat :=
  (List.range 17).find? fun c => (s.core c).role = some r ∧ ¬ (s.core c).retired

/-- The physical core that local memory window n addresses (R34). -/
def coreOfWindow (s : State) (n : Nat) : Option Nat :=
  if n < 16 then (List.range 17).find? fun c => (s.core c).role.map Fin.val = some n ∧ ¬ (s.core c).retired
  else (List.range 17).find? fun c => (s.core c).role = none ∧ ¬ (s.core c).retired

/-- Where an address lies (R32 to R34, R43). -/
def spaceOf (s : State) (a : Nat) : Space :=
  if a < 0x400000000 then
    if 0x3F0000000 ≤ a ∧ s.memc.retiredPc.isSome then .unmapped else .hbm
  else if 0x800000000 ≤ a ∧ a < 0x804000000 then .vs
  else if 0x900000000 ≤ a ∧ a < 0x900110000 then
    match coreOfWindow s ((a - 0x900000000) / 65536) with
    | some c => .localMem c (a % 65536)
    | none => .unmapped
  else if 0x900FF0000 ≤ a ∧ a < 0x900FF8000 then .sram (a - 0x900FF0000)
  else if 0x900FF8000 ≤ a ∧ a < 0x900FFC000 then .rom (a - 0x900FF8000)
  else if 0xA00000000 ≤ a ∧ a < 0xA40000000 then
    if a - 0xA00000000 < s.ssWords then .store (a - 0xA00000000) else .unmapped
  else if 0xF00000000 ≤ a ∧ a < 0xF000D0000 then .regs ((a - 0xF00000000) / 65536) (a % 65536)
  else .unmapped

/-- Storage address of word `off` of physical core p's local memory. -/
def localKey (p off : Nat) : Nat := 0x900000000 + p * 65536 + off % 65536

/-- The storage address of a mapped memory word; none for ROM, registers and unmapped addresses. -/
def storeKey (s : State) (a : Nat) : Option Nat :=
  match spaceOf s a with
  | .localMem c off => some (localKey c off)
  | .hbm | .vs | .sram _ | .store _ => some a
  | _ => none

/-- The one form of stored memory: storage addresses strictly rising, and no entry equal to the 0 that an unlisted address reads as (R466). -/
abbrev Memory.wf (m : WMap) : Bool := wmapWf (fun _ => 0) m

/-- What storage holds at a storage address; a location never written reads 0 (R466) (DESIGN CHOICE, log entry 8). -/
def memGet (s : State) (key : Nat) : Word := wmapGet s.mem key 0

/-- One word of storage set. -/
def memSet (s : State) (key : Nat) (v : Word) : State := { s with mem := wmapSet s.mem key v 0 }

/-- One ECC unit: an HBM granule (R41), a vector-store unit (R48), or a word (R50); its first storage address. -/
def eccUnit (key : Nat) : Nat :=
  if key < 0x400000000 then key / 32 * 32 else if key < 0x900000000 then key / 4 * 4 else key

/-- Words in the ECC unit that starts at a storage address. -/
def eccSize (key : Nat) : Nat := if key < 0x400000000 then 32 else if key < 0x900000000 then 4 else 1

/-- Whether a word lies in a poisoned unit. -/
def poisoned (s : State) (key : Nat) : Bool := s.poison.contains (eccUnit key)

/-- Mark the unit of a word poisoned (R41, R48). -/
def poisonAt (s : State) (key : Nat) : State := { s with poison := addN s.poison (eccUnit key) }

/-- Writes of the storage addresses [key, key+n) clear the poison of every whole unit among them (R41). -/
def clearPoison (s : State) (key n : Nat) : State :=
  { s with poison := s.poison.filter fun u => !(key ≤ u && u + eccSize u ≤ key + n) }

/-- The word at an internal address, whoever reads it; 0 where nothing is mapped. -/
def memRead (s : State) (a : Nat) : Word :=
  match spaceOf s a with
  | .rom off => Config.aocRom off
  | _ => match storeKey s a with
    | some k => memGet s k
    | none => 0

/-- `n` words from an internal address. -/
def memReads (s : State) (a n : Nat) : List Word := (List.range n).map fun i => memRead s (a + i)

/-- Whether a word at an internal address is poisoned. -/
def poisonedAt (s : State) (a : Nat) : Bool :=
  match storeKey s a with
  | some k => poisoned s k
  | none => false

/-- The first poisoned address of [a, a+n), if any. -/
def poisonIn (s : State) (a n : Nat) : Option Nat := ((List.range n).map (a + ·)).find? (poisonedAt s)

/-- A word stored at an internal address; nothing happens where nothing can be written. -/
def memWrite (s : State) (a : Nat) (v : Word) : State :=
  match storeKey s a with
  | some k => clearPoison (memSet s k v) k 1
  | none => s

/-- Words stored from an internal address on, in address order. -/
def memWrites (s : State) (a : Nat) (vs : List Word) : State :=
  let s' := (vs.zipIdx).foldl (fun s e => match storeKey s (a + e.2) with | some k => memSet s k e.1 | none => s) s
  match storeKey s a with
  | some k => clearPoison s' k vs.length
  | none => s'

/-- A word stored under a mask: bits outside the mask keep their value. -/
def memWriteMask (s : State) (a : Nat) (v mask : Word) : State :=
  match storeKey s a with
  | some k => memSet s k ((memGet s k &&& ~~~mask) ||| (v &&& mask))
  | none => s

/-- Whether every word of a range is mapped memory that a mover reaches (Table 2.2). -/
def rangeIn (p : Space → Bool) (s : State) (a n : Nat) : Bool :=
  (List.range n).all fun i => p (spaceOf s (a + i))

/-- HBM and the vector store. -/
def Space.isMain : Space → Bool
  | .hbm | .vs => true
  | _ => false

/-- A contiguous range lies wholly in HBM or wholly in the vector store. -/
def mainRange (s : State) (a n : Nat) : Bool :=
  if n = 0 then true else
  let hbmEnd := if s.memc.retiredPc.isSome then 0x3F0000000 else 0x400000000
  a + n ≤ hbmEnd || (0x800000000 ≤ a && a + n ≤ 0x804000000)

/-- A contiguous range lies wholly in the fitted state store window. -/
def storeRange (s : State) (a n : Nat) : Bool := 0xA00000000 ≤ a && a + n ≤ 0xA00000000 + s.ssWords

/-- A word address of the state store window. -/
def ssAddr (off : Nat) : Nat := 0xA00000000 + off

/-- What a read of the state store finds: its channel serves every queued write before it (R58). -/
def memSeen (s : State) (key : Nat) : Word :=
  match (s.memc.ssq.reverse.flatMap fun e => e.2.2.2.reverse).find? (·.1 == key) with
  | some e => e.2
  | none => memGet s key

/-- A read of state-store words by the device's own blocks, after the writes that are queued (R58). -/
def ssReads (s : State) (off n : Nat) : List Word := (List.range n).map fun i => memSeen s (ssAddr (off + i))

/-- The word at an internal address as a block of the device finds it: in the state store, after the writes that are queued (R58). -/
def memReadSeen (s : State) (a : Nat) : Word :=
  match spaceOf s a with
  | .store off => memSeen s (ssAddr off)
  | _ => memRead s a

/-- An access to the state store restarts its interface's clock (Table 12.6). -/
def State.useXspi (s : State) : State := { s with power := { s.power with clkXspi := true } }

/-- State-store words made durable. -/
def ssWrites (s : State) (off : Nat) (vs : List Word) : State :=
  (vs.zipIdx).foldl (fun s e => memSet s (ssAddr (off + e.2)) e.1) s

/-! Host memory -/

/-- A byte of host memory that the device writes; addresses stay strictly rising. -/
def hostPut : List Host.Cell → Nat → Byte → List Host.Cell
  | [], a, v => [(a, v)]
  | (b, w) :: r, a, v => if b = a then (a, v) :: r else if a < b then (a, v) :: (b, w) :: r else (b, w) :: hostPut r a v

/-- Bytes written to host memory from a byte address on. -/
def hostWrite (s : State) (a : Nat) (bs : List Byte) : State :=
  { s with hostMem := (bs.zipIdx).foldl (fun m e => hostPut m (a + e.2) e.1) s.hostMem }

/-! Interrupts to roles -/

/-- The role that answers for a role: itself, or role 0 where no core holds it (R438). 16 is the AOC. -/
def liveRole (s : State) (r : Nat) : Nat :=
  if r = 16 then 16 else if (coreOfWindow s r).isSome then r else 0

/-- A source of interrupt cause `cause` becomes pending on a role (Table 9.6) (DEDUCED, log entry 16). -/
def raiseInt (s : State) (role cause info addr : Nat) : State :=
  { s with intq := s.intq ++ [(⟨liveRole s role, cause, wd info, BitVec.ofNat 36 addr⟩ : IntSource)] }

/-! MSI-X and SMBALERT# -/

/-- MSI-X vector v is signalled: its message is written to host memory, or its pending bit sets where the vector is masked (R364, R375). -/
def signalVec (s : State) (v : Nat) : State :=
  let d (i : Nat) : Nat := (s.hif.msix.getD (4 * v + i) 0).toNat
  if d 3 % 2 = 1 then { s with hif := { s.hif with pba := s.hif.pba ||| BitVec.ofNat 64 (2 ^ v) } }
  else
    let s := hostWrite s (d 0 + d 1 * 4294967296) (bytesOfNat 4 (d 2))
    { s with hif := { s.hif with lastMsi := v :: s.hif.lastMsi.take 15 } }

/-- The host's event vector is signalled where HIF_EVCFG enables it (R375). -/
def signalEventVec (s : State) : State :=
  if s.regF Reg.HIF_EVCFG 15 15 = 1 then signalVec s (s.regF Reg.HIF_EVCFG 5 0) else s

/-- SMBALERT# is driven low (R391). -/
def alertLow (s : State) : State := { s with side := { s.side with alert := true } }

/-! Events -/

/-- Severities (Table 16.1). -/
inductive Sev where
  | note | masked | degraded | action | stop
  deriving DecidableEq, Repr

def Sev.code : Sev → Nat
  | .note => 0 | .masked => 1 | .degraded => 2 | .action => 3 | .stop => 4

/-- An event log entry's 16 words (Table 16.2) with its CRC. -/
def eventWords (code sev count seq time tick blk unit : Nat) (args : List Nat) : List Word :=
  let ws := [wd code, wd (sev * 8192 + count)] ++ wordsOfNat 2 seq ++ wordsOfNat 4 time ++ wordsOfNat 2 tick ++
    [wd (blk * 256 + unit)] ++ (List.range 4).map (fun i => wd (args.getD i 0))
  ws ++ [wd (crc16Words ws)]

/-- The entry with COUNT one higher, saturating at 255, and its CRC again (R429 step 1). -/
def mergeEntry (ws : List Word) : List Word :=
  let w1 := wordAt ws 1
  let ws := (ws.take 15).set 1 (wd (setBitsN w1 7 0 (satTo 255 (w1 % 256 + 1))))
  ws ++ [wd (crc16Words ws)]

/-- An event of a numeric severity is logged by R429, and in the mirror of R395; an entry of severity ACTION or STOP signals the host and SMBALERT# (R427). -/
def logRaw (s : State) (code sev blk unit : Nat) (args : List Nat) : State :=
  let same (e : EvEntry) : Bool := wordAt e.words 0 == code && wordAt e.words 10 == blk * 256 + unit && decide (s.time.toNat < e.began.toNat + 100000000)
  if s.ras.evq.any same then
    let old := (s.ras.evq.filter same).map (·.words)
    { s with ras := { s.ras with evq := s.ras.evq.map fun e => if same e then { e with words := mergeEntry e.words } else e }
             side := { s.side with mirror := s.side.mirror.map fun w => if old.contains w then mergeEntry w else w } }
  else if s.ras.evq.length ≥ 256 then s.regSatInc Reg.RAS_EVLOST
  else
    let seq := s.reg Reg.RAS_EVSEQ 2
    let ws := eventWords code sev 1 seq s.time.toNat s.aon.tick.toNat blk unit args
    let s := { s with ras := { s.ras with evq := s.ras.evq ++ [(⟨ws, s.time⟩ : EvEntry)] },
                      side := { s.side with mirror := (s.side.mirror ++ [ws]).drop (s.side.mirror.length + 1 - 64) } }
    let s := s.regSet Reg.RAS_EVSEQ ((seq + 1) % 4294967296) 2
    if sev ≥ 3 then alertLow (signalEventVec s) else s

/-- An event of a block is logged (R427 to R429). UNIT is 0xFF where the event names none. -/
def logEv (s : State) (code : Nat) (sev : Sev) (blk : Nat) (unit : Nat := 0xFF) (args : List Nat := []) : State :=
  logRaw s code sev.code blk unit args

/-- A detector's report joins the error queue, or is counted in RAS_EQLOST where the queue is full (R431). -/
def reportErr (s : State) (code sev blk unit : Nat) (args : List Nat) : State :=
  if s.ras.eq.length ≥ 64 then s.regSatInc Reg.RAS_EQLOST
  else { s with ras := { s.ras with eq := s.ras.eq ++ [(eventWords code sev 1 0 s.time.toNat s.aon.tick.toNat blk unit args).set 15 0] } }

/-- A write that its field's change class forbids: the block's CHG_REJ sets and EV-0x0F01 is logged (R13) (DEDUCED, log entry 44). -/
def rejectChange (s : State) (blk : Nat) : State :=
  logEv (s.regSetF (blk * 65536) 14 14 1) 0x0F01 .note blk

/-- Whether a core's meaning goes on: the answer of a command that always gives a next state. -/
abbrev ok (s : State) : Out := .next s

end Sys2Proof.Machine
end

