-- ==== Sys2Proof/Machine/Flags.lean ====
section
/-! DEFINITION. The status word of a control core (Table 7.4), the conditions (Table 7.7), and every flag rule: arithmetic (R237), shifts (R239), products and quotients (R240, R241), packed decimal (R242), CRC steps (R210). -/
namespace Sys2Proof.Machine
open Sys2Proof

/-! ST (Table 7.4) -/

def Core.z (k : Core) : Bool := k.st.getLsbD 0
def Core.n (k : Core) : Bool := k.st.getLsbD 1
def Core.cf (k : Core) : Bool := k.st.getLsbD 2
def Core.v (k : Core) : Bool := k.st.getLsbD 3
def Core.d (k : Core) : Bool := k.st.getLsbD 4
def Core.t (k : Core) : Bool := k.st.getLsbD 5
def Core.ring (k : Core) : Nat := bitsN k.st.toNat 7 6
def Core.ie (k : Core) : Bool := k.st.getLsbD 8
def Core.repa (k : Core) : Bool := k.st.getLsbD 9
def Core.fpp (k : Core) : Bool := k.st.getLsbD 10
def Core.fte (k : Core) : Bool := k.st.getLsbD 11

/-- ST with bits [hi:lo] set to `x`. -/
def Core.setSt (k : Core) (hi lo x : Nat) : Core := { k with st := wd (setBitsN k.st.toNat hi lo x) }

/-- Conditions (Table 7.7). -/
def condHolds (k : Core) : Cond → Bool
  | .al => true
  | .z => k.z
  | .nz => !k.z
  | .c => k.cf
  | .nc => !k.cf
  | .n => k.n
  | .nn => !k.n
  | .v => k.v
  | .nv => !k.v
  | .t => k.t
  | .nt => !k.t
  | .d => k.d
  | .lt => k.n != k.v
  | .ge => k.n == k.v
  | .hi => !k.cf && !k.z

/-- The C4 code of a condition. -/
def condC4 : Cond → Nat
  | .al => 0 | .z => 1 | .nz => 2 | .c => 3 | .nc => 4 | .n => 5 | .nn => 6 | .v => 7 | .nv => 8
  | .t => 9 | .nt => 10 | .d => 11 | .lt => 12 | .ge => 13 | .hi => 14

/-- The C2 code of a condition, where it has one. -/
def condC2 : Cond → Option Nat
  | .al => some 0 | .z => some 1 | .nz => some 2 | .t => some 3
  | _ => none

/-- The condition of a C2 code. -/
def condOfC2 (n : Nat) : Cond := match n % 4 with | 0 => .al | 1 => .z | 2 => .nz | _ => .t

/-! Flag changes -/

/-- New values of the flags that an instruction names; none where it leaves a flag unchanged (R233). -/
structure FlagUpd where
  z : Option Bool := none
  n : Option Bool := none
  c : Option Bool := none
  v : Option Bool := none
  d : Option Bool := none
  t : Option Bool := none
  deriving DecidableEq, Repr

/-- One flag bit of ST. -/
def putFlag (i : Nat) (b : Option Bool) (st : Nat) : Nat := match b with | some x => setBitsN st i i (b2n x) | none => st

/-- ST with flags changed; every other bit keeps its value. -/
def FlagUpd.apply (f : FlagUpd) (st : Word) : Word :=
  wd (putFlag 5 f.t (putFlag 4 f.d (putFlag 3 f.v (putFlag 2 f.c (putFlag 1 f.n (putFlag 0 f.z st.toNat))))))

/-- Z and N of a result of `w` bits (R233). -/
def zn (w r : Nat) : FlagUpd := { z := some (r % 2 ^ w == 0), n := some (bitN r (w - 1)) }

/-! Integer arithmetic and logic (R237) -/

/-- a + b + cy on `w` bits: the result and Z, N, C, V. -/
def addF (w a b cy : Nat) : Nat × FlagUpd :=
  let r := (a + b + cy) % 2 ^ w
  let sv := toSigned w a + toSigned w b + cy
  (r, { zn w r with c := some (decide (2 ^ w ≤ a + b + cy)), v := some (sv != toSigned w r) })

/-- a − b − bw on `w` bits: the result and Z, N, C (the borrow out), V. -/
def subF (w a b bw : Nat) : Nat × FlagUpd :=
  let r := ofSigned w ((a : Int) - b - bw)
  let sv := toSigned w a - toSigned w b - bw
  (r, { zn w r with c := some (decide (a < b + bw)), v := some (sv != toSigned w r) })

/-- A logic result: Z, N, V := 0. -/
def logicF (w r : Nat) : Nat × FlagUpd := (r, { zn w r with v := some false })

/-- T := Z, as compare and test instructions set it. -/
def withT (f : FlagUpd) : FlagUpd := { f with t := f.z }

/-- The result of a two-operand ALU operation of Table 8.4 on operands of `w` bits, with its flags; no result for CMP. -/
def alu2 (op w a b : Nat) (c : Bool) : Option Nat × FlagUpd :=
  let res (x : Nat × FlagUpd) : Option Nat × FlagUpd := (some x.1, x.2)
  let sel (p : Bool) : Option Nat × FlagUpd := let r := if p then a else b; (some r, zn w r)
  match op with
  | 0x00 => res (addF w a b 0)
  | 0x01 => res (addF w a b (b2n c))
  | 0x02 => res (subF w a b 0)
  | 0x03 => res (subF w a b (b2n c))
  | 0x04 => (none, withT (subF w a b 0).2)
  | 0x08 => res (logicF w (a &&& b))
  | 0x09 => res (logicF w (a ||| b))
  | 0x0A => res (logicF w (a ^^^ b))
  | 0x0B => res (logicF w (a &&& (2 ^ w - 1 - b)))
  | 0x0E => sel (decide (toSigned w a ≤ toSigned w b))
  | 0x0F => sel (decide (toSigned w b ≤ toSigned w a))
  | 0x10 => sel (decide (a ≤ b))
  | _ => sel (decide (b ≤ a))

/-- The result of a one-operand ALU operation of Table 8.4, with its flags. -/
def alu1 (op w a : Nat) : Nat × FlagUpd :=
  match op with
  | 0x05 => let r := ofSigned w (-(a : Int)); (r, { zn w r with c := some (a != 0), v := some (a == 2 ^ (w - 1)) })
  | 0x06 => addF w a 1 0
  | 0x07 => subF w a 1 0
  | 0x0C => logicF w (2 ^ w - 1 - a)
  | 0x0D => (a, withT (logicF w a).2)
  | _ => let r := (toSigned w a).natAbs; (r, { zn w r with v := some (a == 2 ^ (w - 1)) })

/-! Shifts (R239) -/

/-- Shift operation `op` (0 SHL, 1 SHR, 2 SAR, 3 ROL) of `a`, of `w` bits, by `n`: the result and Z, N, C, V. -/
def shiftF (op w a n : Nat) : Nat × FlagUpd :=
  let sign := bitN a (w - 1)
  let (r, c) : Nat × Bool := match op with
    | 0 => ((a <<< n) % 2 ^ w, decide (n ≤ w) && bitN a (w - n))
    | 1 => (a >>> n, decide (n ≤ w) && bitN a (n - 1))
    | 2 => (ofSigned w (toSigned w a >>> n), if n ≤ w then bitN a (n - 1) else sign)
    | _ => let k := n % w
           let r := (a <<< k) % 2 ^ w + (a >>> (w - k))
           (if k = 0 then a else r, bitN (if k = 0 then a else r) 0)
  (r, { zn w r with c := if n = 0 then none else some c, v := some false })

/-! Products and quotients (R240, R241) -/

def mulF (a b : Nat) : Nat × FlagUpd := let r := a * b; (r, { zn 32 r with c := some (r / 65536 != 0), v := some false })
def mulsF (a b : Nat) : Nat × FlagUpd :=
  let r := ofSigned 32 (toSigned 16 a * toSigned 16 b)
  (r, { zn 32 r with c := some (toSigned 32 r != toSigned 16 r), v := some false })
def mul32F (d b : Nat) : Nat × FlagUpd := let r := d * b; (r, { zn 48 r with c := some (r >>> 32 != 0), v := some false })
def divF (d b : Nat) : Nat × FlagUpd := let r := d / b; (r, { zn 32 r with c := some false, v := some false })
/-- Truncates towards zero; the one overflow gives 0x7FFF_FFFF with V := 1 (R241). -/
def divsF (d b : Nat) : Nat × FlagUpd :=
  let q := (toSigned 32 d).tdiv (toSigned 16 b)
  let ov := d == 0x80000000 && b == 0xFFFF
  let r := if ov then 0x7FFFFFFF else ofSigned 32 q
  (r, { zn 32 r with c := some false, v := some ov })
def remF (d b : Nat) : Nat × FlagUpd := let r := d % b; (r, { zn 16 r with c := some false, v := some false })

/-! Packed decimal (R242) -/

def bcdDigit (v i : Nat) : Nat := (v >>> (4 * i)) % 16

/-- The digit loop of an addition from digit `i`: the digits so far and the carry. -/
def bcdAdd (a b : Nat) : Nat → Nat → Nat → Nat → Nat × Nat
  | 0, _, cy, r => (r, cy)
  | k + 1, i, cy, r =>
    let s := bcdDigit a i + bcdDigit b i + cy
    if s > 9 then bcdAdd a b k (i + 1) 1 (r + (((s + 6) % 16) <<< (4 * i)))
    else bcdAdd a b k (i + 1) 0 (r + ((s % 16) <<< (4 * i)))

/-- The digit loop of a subtraction. -/
def bcdSub (a b : Nat) : Nat → Nat → Nat → Nat → Nat × Nat
  | 0, _, bw, r => (r, bw)
  | k + 1, i, bw, r =>
    let s : Int := (bcdDigit a i : Int) - bcdDigit b i - bw
    if s < 0 then bcdSub a b k (i + 1) 1 (r + (ofSigned 4 (s + 10) <<< (4 * i)))
    else bcdSub a b k (i + 1) 0 (r + (ofSigned 4 s <<< (4 * i)))

/-- Some digit of the low `k` exceeds 9. -/
def bcdBad (k v : Nat) : Bool := (List.range k).any fun i => decide (9 < bcdDigit v i)

/-- Z, N, D, V of a decimal result of `k` digits. -/
def bcdFlags (k r : Nat) (d v : Bool) : FlagUpd := { z := some (r == 0), n := some (decide (5 ≤ bcdDigit r (k - 1))), d := some d, v := some v }

def daddF (k a b cy : Nat) : Nat × FlagUpd :=
  let (r, c) := bcdAdd a b k 0 cy 0
  (r, bcdFlags k r (c == 1) (bcdBad k a || bcdBad k b))
def dsubF (k a b bw : Nat) : Nat × FlagUpd :=
  let (r, c) := bcdSub a b k 0 bw 0
  (r, bcdFlags k r (c == 1) (bcdBad k a || bcdBad k b))

/-- The low `k` decimal digits of a number, packed. -/
def toBcd : Nat → Nat → Nat
  | 0, _ => 0
  | k + 1, v => v % 10 + 16 * toBcd k (v / 10)

/-- The number that `k` packed digits weigh. -/
def fromBcd : Nat → Nat → Nat
  | 0, _ => 0
  | k + 1, v => v % 16 + 10 * fromBcd k (v / 16)

/-! CRC (R210) -/

/-- CRCS after the bits k−1 down to 0 of `v`. -/
def crcSteps (p : Nat) (k v s : Nat) : Nat := crcBits 32 p k v s

/-- A core after CRC steps: CRCS, and Z := (CRCS = 0) (R243). -/
def Core.crc (x : Core) (k v : Nat) : Core :=
  let s := crcSteps x.crcp.toNat k v x.crcs.toNat
  { x with crcs := BitVec.ofNat 32 s, st := ({ z := some (s == 0) } : FlagUpd).apply x.st }

end Sys2Proof.Machine
end

