-- ==== Sys2Proof/Machine/Operands.lean ====
section
/-! DEFINITION. Operand forms of a control core: the operand stack (R202 to R204), address registers and their stepping (R205 to R207), the memories a core reaches (R200, R205, Table 2.2) under its windows (R263), far loads and posted stores (R217). -/
namespace Sys2Proof.Machine
open Sys2Proof

/-! The operand stack -/

/-- Entry `i` of the top `n` entries, 0 the deepest of them. -/
def Core.arg (k : Core) (n i : Nat) : Nat := (k.stack.getD (k.depth - n + i) 0).toNat

/-- Entries i and i+1 of the top `n` entries as a 32-bit value, less significant below (R6). -/
def Core.arg32 (k : Core) (n i : Nat) : Nat := k.arg n i + k.arg n (i + 1) * 65536

/-- Words put into a list from position `i` on. -/
def putAt (l : List Word) (i : Nat) : List Word → List Word
  | [] => l
  | w :: ws => putAt (l.set i w) (i + 1) ws

/-- The top `n` entries replaced by `ws`, its head the deepest (R202). -/
def Core.replace (k : Core) (n : Nat) (ws : List Word) : Core :=
  { k with stack := putAt k.stack (k.depth - n) ws, depth := k.depth - n + ws.length }

/-- Flags changed. -/
def Core.flags (k : Core) (f : FlagUpd) : Core := { k with st := f.apply k.st }

/-- A value of `w` bits as stack entries (R6). -/
def entries (w v : Nat) : List Word := wordsOfNat (w / 16) v

/-- The three entries of a 36-bit address (R232). -/
def addrEntries (a : Nat) : List Word := [wd a, wd (a >>> 16), wd ((a >>> 32) % 16)]

/-- The address in the top three entries (R232). -/
def Core.argAddr (k : Core) (n i : Nat) : Nat := k.arg n i + k.arg n (i + 1) * 65536 + (k.arg n (i + 2) % 16) * 4294967296

/-! Address registers -/

def Core.addr (k : Core) (n : Nat) : Nat := (k.a.getD n 0).toNat
def Core.setAddr (k : Core) (n a : Nat) : Core := { k with a := k.a.set n (BitVec.ofNat 36 a) }

/-- An address plus a signed amount, modulo 2^36 (R205). -/
def addrAdd (a : Nat) (d : Int) : Nat := ofSigned 36 ((a : Int) + d)

/-- The low `w` bits of v reversed. -/
def revLow : Nat → Nat → Nat
  | 0, _ => 0
  | w + 1, v => (v % 2) * 2 ^ w + revLow w (v / 2)

/-- An address register stepped by `d` (Table 7.2); none where the step faults (R207). -/
def Core.stepped (k : Core) (n : Nat) (d : Int) : Option Nat :=
  let a := k.addr n
  let m := k.am.getD n ⟨0, 0, 0, 0⟩
  if n ≥ 4 then some (addrAdd a d) else
  match m.mode.toNat with
  | 1 =>
    if m.mlen = 0 then none else
    some ((m.mbase.toNat + (((a : Int) - m.mbase.toNat + d) % (m.mlen.toNat : Int)).toNat) % 2 ^ 36)
  | 2 =>
    let w := m.brw.toNat
    let dl := (d % (2 ^ w : Nat)).toNat
    some (a / 2 ^ w * 2 ^ w + revLow w ((revLow w (a % 2 ^ w) + revLow w dl) % 2 ^ w))
  | _ => some (addrAdd a d)

/-! Local memory -/

/-- The local base of a core (R233). -/
def localBase (s : State) (c : Nat) : Nat :=
  if c = 17 then 0x900FF0000 else
  match (s.core c).role with
  | some r => 0x900000000 + r.val * 65536
  | none => 0x900100000

/-- Words of a core's local memory: 64 Ki, and the AOC's SRAM (R219, Table 7.13). -/
def localSize (c : Nat) : Nat := if c = 17 then 0x8000 else 0x10000

/-- Whether a word lies in the core's own local memory (R200). -/
def isLocal (s : State) (c a : Nat) : Bool := decide (localBase s c ≤ a) && decide (a < localBase s c + localSize c)

/-- Whether an instruction word can be fetched from an address (R218). -/
def fetchable (s : State) (c a : Nat) : Bool := isLocal s c a || (c == 17 && decide (0x900FF8000 ≤ a) && decide (a < 0x900FFC000))

/-- The storage address of a word of a core's own local memory. -/
def ownKey (c a : Nat) : Nat := if c = 17 then a else localKey c a

/-- A word of a core's own local memory, or of the AOC's ROM. -/
def ownRead (s : State) (c a : Nat) : Word :=
  if c = 17 ∧ 0x900FF8000 ≤ a then Config.aocRom (a - 0x900FF8000) else memGet s (ownKey c a)

/-- A word of a core's own local memory written. -/
def ownWrite (s : State) (c a : Nat) (v : Word) : State := clearPoison (memSet s (ownKey c a) v) (ownKey c a) 1

/-- Words of a core's own local memory written, from an address on. -/
def ownWrites (s : State) (c a : Nat) : List Word → State
  | [] => s
  | v :: vs => ownWrites (ownWrite s c a v) c (a + 1) vs

/-- `n` words of a core's own local memory. -/
def ownReads (s : State) (c a n : Nat) : List Word := (List.range n).map fun i => ownRead s c (a + i)

/-- The `n` addresses from `a` on, modulo 2^36 (R205). -/
def addrsFrom (a n : Nat) : List Nat := (List.range n).map fun i => (a + i) % 2 ^ 36

/-- The first of some addresses outside the core's local memory. -/
def firstOutside (s : State) (c : Nat) (as : List Nat) : Option Nat := as.find? fun a => !isLocal s c a

/-- The first of some local addresses whose word has a double-bit error (R50). -/
def firstBad (s : State) (c : Nat) (as : List Nat) : Option Nat := as.find? fun a => poisoned s (ownKey c a)

/-! Windows (R263) -/

/-- Whether one core window grants a right (0 R, 1 W, 2 X) on every word of an access to the ring in force. -/
def winGrants (k : Core) (right : Nat) (as : List Nat) : Bool :=
  k.ring == 0 || k.cw.any fun w => w.rights.getLsbD (3 * (k.ring - 1) + right) && as.all fun a => decide (w.base.toNat ≤ a) && decide (a ≤ w.limit.toNat)

/-! Exceptions of an instruction -/

/-- An exception: cause, INFO, ADDR (none: a value the spec leaves open). -/
structure Exc where
  cause : Nat
  info  : Nat
  addr  : Option Nat
  deriving DecidableEq, Repr

/-- INFO of causes 0x03, 0x04 and 0x0F (Table 9.6). -/
def accessInfo (store fetch frame : Bool) : Nat := 32768 * b2n store + 16384 * b2n fetch + 8192 * b2n frame

/-- How an executed instruction ends: its effect with the address it continues at (none: the next instruction), an exception, a requested trap, or the far-data wait of R217. -/
inductive Res where
  | done (s : State) (pc : Option Nat)
  | exc (e : Exc)
  | trap (code : Nat)
  | wait

/-- What an instruction runs in: its core, its address, its length, its first word, and whether it is a step of a microprogram (R281). -/
structure Ctx where
  c     : Nat
  p     : Nat
  len   : Nat
  word  : Nat
  micro : Option Nat

/-! Loads and stores -/

/-- Where a core's access goes. -/
inductive Reach where
  | own
  | far (ro : Bool)
  | none
  deriving DecidableEq, Repr

/-- Whether an address lies in the AOC's ROM. -/
def isRom (s : State) (a : Nat) : Bool := match spaceOf s a with | .rom _ => true | _ => false

/-- What a core reaches at an address (Tables 2.2, 7.13): own local memory, far memory, or nothing, register blocks among that (R220). What is "ring 0 only" is unmapped in rings 1 to 3 (DESIGN CHOICE, log entry 55). -/
def coreReach (s : State) (c a : Nat) : Reach :=
  let r0 := (s.core c).ring == 0
  if isLocal s c a then .own else if c == 17 && !s.boot.mainOn && !isRom s a then .none else
  match spaceOf s a with
  | .hbm | .vs => .far false
  | .store _ => .far true
  | .localMem _ _ => if r0 then .far false else .none
  | .sram _ => if r0 then .far false else .none
  | .rom _ => if r0 then .far true else .none
  | _ => .none

/-- The faults of an access to words, in the order of Table 8.10; `step` is the step of the address register, none inside where it faults. A store into the AOC ROM is refused with 0x04 in every ring (Table 2.2). In a microprogram an access outside local memory is a microcode fault (R281). The faulting word of several that no one window covers is the first (DESIGN CHOICE, log entry 55). -/
def accessFault (s : State) (x : Ctx) (store : Bool) (as : List Nat) (stepOk : Bool) : Option Exc :=
  let k := s.core x.c
  let info := accessInfo store false false
  match x.micro, firstOutside s x.c as with
  | some i, some a => some ⟨0x0D, i, some a⟩
  | _, _ =>
    match as.find? fun a => coreReach s x.c a == .none && !(store && isRom s a) with
    | some a => some ⟨0x03, info, some a⟩
    | none =>
      if !stepOk then some ⟨0x03, info, as.head?⟩ else
      match as.find? fun a => store && (coreReach s x.c a == .far true || isRom s a) with
      | some a => some ⟨0x04, info, some a⟩
      | none => if winGrants k (b2n store) as then none else some ⟨0x04, info, as.head?⟩

/-- A pending far load of one or two words joins the core's loads; its entries come into use (R217). -/
def issueFar (s : State) (c a pos : Nat) (dbl : Bool) : State :=
  s.updCore c fun k => { k with far := k.far ++ [(⟨BitVec.ofNat 36 a, pos, dbl, k.fence, k.posted.length, none⟩ : FarLoad)], fence := [] }

/-- A core's words read into stack entries from position `pos` on: own words at once, far words pending. -/
def loadInto (s : State) (c : Nat) : List Nat → Nat → State
  | [], _ => s
  | [a], pos => if isLocal s c a then s.updCore c fun k => { k with stack := k.stack.set pos (ownRead s c a) } else issueFar s c a pos false
  | a :: b :: rest, pos =>
    if !isLocal s c a && !isLocal s c b then issueFar s c a pos true
    else loadInto (if isLocal s c a then s.updCore c fun k => { k with stack := k.stack.set pos (ownRead s c a) } else issueFar s c a pos false) c (b :: rest) (pos + 1)

/-- A load of the words at `as`, the address register `n` stepping to `st` (R245). -/
def loadWords (s : State) (x : Ctx) (as : List Nat) (n : Nat) (st : Option Nat) : Res :=
  match accessFault s x false as st.isSome with
  | some e => .exc e
  | none =>
    match (as.filter (isLocal s x.c)).find? (fun a => poisoned s (ownKey x.c a)) with
    | some a => .exc ⟨0x0F, 0, some a⟩
    | none =>
      if as.any (fun a => !isLocal s x.c a) ∧ (s.core x.c).far.length ≥ 4 then .wait else
      let s := loadInto s x.c as (s.core x.c).depth
      .done (s.updCore x.c fun k => { k.setAddr n (st.getD 0) with depth := k.depth + as.length }) none

/-- Words stored: own ones at once, far ones posted (R217). -/
def storeFrom (s : State) (c : Nat) (as : List Nat) (vs : List Word) : State :=
  if as.all fun a => !isLocal s c a then
    s.updCore c fun k => { k with posted := k.posted ++ [(⟨false, BitVec.ofNat 36 (as.headD 0), vs.headD 0, vs[1]?, BitVec.ofNat 2 k.ring⟩ : Posted)] }
  else (as.zip vs).foldl (fun s e => if isLocal s c e.1 then ownWrite s c e.1 e.2 else
    s.updCore c fun k => { k with posted := k.posted ++ [(⟨false, BitVec.ofNat 36 e.1, e.2, none, BitVec.ofNat 2 k.ring⟩ : Posted)] }) s

/-- A store of the top entries to the words at `as`. -/
def storeWords (s : State) (x : Ctx) (as : List Nat) (n : Nat) (st : Option Nat) : Res :=
  match accessFault s x true as st.isSome with
  | some e => .exc e
  | none =>
    let k := s.core x.c
    let m := as.length
    if as.any (fun a => !isLocal s x.c a) ∧ (k.posted.filter (!·.isRing)).length ≥ 8 then .wait else
    let s := storeFrom s x.c as ((List.range m).map fun i => wd (k.arg m i))
    .done (s.updCore x.c fun k => { k.setAddr n (st.getD 0) with depth := k.depth - m }) none

/-- The address of a load or store and what its register becomes (R245): with P = 0, An + offset and no step; with P = 1, An, stepped by the offset. -/
def memOperand (k : Core) (n : Nat) (p : Bool) (off : Int) : Nat × Option Nat :=
  if p then (k.addr n, k.stepped n off) else (addrAdd (k.addr n) off, some (k.addr n))

end Sys2Proof.Machine
end

