-- ==== Sys2Proof/Machine/CoreOps.lean ====
section
/-! DEFINITION. What every control-core instruction shares: the fetch window (R224), taking an exception (R267, R268, R271, R274, R275), the issue of an instruction (R211 to R217, R248 to R250, R269), interrupts (R267, R269, R272). -/
namespace Sys2Proof.Machine
open Sys2Proof

/-! Fetch window (R224) -/

/-- The words of the window from an address on, read now; a word that cannot be fetched reads 0, so that a REP before it counts as one of a repeatable word, and the fault is that word's own (DESIGN CHOICE, log entry 5). -/
def fetchWords (s : State) (c a n : Nat) : List Word :=
  (addrsFrom a n).map fun x => if fetchable s c x then ownRead s c x else 0

/-- The window emptied and filled again from the PC. -/
def winRefill (s : State) (c : Nat) : State :=
  let a := (s.core c).pc.toNat
  let ws := fetchWords s c a 8
  s.updCore c fun k => { k with winBase := k.pc, win := ws, winDe := List.replicate 8 none }

/-- The PC advanced by `n` words in sequence: the words that enter are read now. -/
def winAdvance (s : State) (c n : Nat) : State :=
  let k := s.core c
  let a := k.pc.toNat
  if k.winBase = k.pc ∧ k.win.length = 8 then
    let ws := fetchWords s c ((a + 8) % 2 ^ 36) n
    s.updCore c fun k => { k with pc := BitVec.ofNat 36 (a + n), winBase := BitVec.ofNat 36 (a + n), win := k.win.drop n ++ ws, winDe := k.winDe.drop n ++ List.replicate n none }
  else winRefill (s.updCore c fun k => { k with pc := BitVec.ofNat 36 (a + n) }) c

/-- The PC set by a taken branch: the window is refilled. -/
def jumpTo (s : State) (c a : Nat) : State := winRefill (s.updCore c fun k => { k with pc := BitVec.ofNat 36 a }) c

/-- The word at the PC plus `i`, from the window. -/
def winWord (s : State) (c i : Nat) : Nat :=
  let k := s.core c
  if k.winBase = k.pc then (k.win.getD i (ownRead s c ((k.pc.toNat + i) % 2 ^ 36))).toNat else (ownRead s c ((k.pc.toNat + i) % 2 ^ 36)).toNat

/-- The decode page that the word at the PC plus `i` was read with (R282). -/
def winPage (k : Core) (i : Nat) : List (Word × Word) × WMap := ((k.winDe.getD i none)).getD (k.de, k.msteps)

/-- A core's cycle counter advanced by an instruction, ahead of the 10 ns counts that these cycles belong to (DEDUCED, log entry 14); the AOC executes from the burst oscillator, which runs on demand (Table 12.6). -/
def addCycles (s : State) (c n : Nat) : State :=
  let s := if c = 17 then { s with power := { s.power with clkBurst := true } } else s
  s.updCore c fun k => { k with cycle := k.cycle + BitVec.ofNat 64 n, ahead := k.ahead + n }

/-! Exception entry -/

/-- The role number that events name for a core; 16 for the AOC, 0x1F for a core without a role. -/
def roleNo (s : State) (c : Nat) : Nat := if c = 17 then 16 else match (s.core c).role with | some r => r.val | none => 31

/-- The words of a frame (Table 9.9). -/
def frameWords (base ret st a7 kind : Nat) (rest : List Nat) : List Word :=
  [wd ((ret + 2 ^ 36 - base) % 2 ^ 36), wd st] ++ addrEntries a7 ++ [wd kind] ++ rest.map wd

/-- INFO and ADDR of an exception frame. -/
def excWords (info addr : Nat) : List Nat := [info, addr, addr >>> 16, (addr >>> 32) % 16]

/-- BLOCK of a core's events: CCX, or 0xFF for the AOC (Table 16.2). -/
def coreBlock (c : Nat) : Nat := if c = 17 then 0xFF else 10

/-- A core halts at a second double fault (R275). -/
def haltDouble (s : State) (c : Nat) : State :=
  logEv (s.updCore c fun k => { k with halted := true, waiting := false, stalled := false }) 0x3011 .degraded (coreBlock c) (roleNo s c)

/-- The handler of a cause, read from the vector table: its address, or the failure (cause, address). -/
def vectorOf (s : State) (c cause : Nat) : Except (Nat × Nat) Nat :=
  let base := localBase s c
  let va := (base + (s.core c).evbase.toNat + cause) % 2 ^ 36
  if !isLocal s c va then .error (0x03, va)
  else if poisoned s (ownKey c va) then .error (0x0F, va)
  else
    let h := (base + (ownRead s c va).toNat) % 2 ^ 36
    if fetchable s c h then .ok h else .error (0x03, h)

/-- The registers that every entry changes (R268 step 3): RING, IE and REPA go to 0, EDEPTH takes DEPTH; FPP clears for cause 0x0A. -/
def Core.entered (k : Core) (a7 cause : Nat) : Core :=
  let st := setBitsN (setBitsN k.st.toNat 9 8 0) 7 6 0
  let st := if cause = 0x0A then setBitsN st 10 10 0 else st
  { (k.setAddr 7 a7) with st := wd st, edepth := BitVec.ofNat 6 k.depth, waiting := false, stalled := false }

/-- An unreadable word of a core's own local memory: its machine check is an event as well (R50, R440). -/
def noteUnreadable (s : State) (cause : Nat) : State := if cause = 0x0F then logEv s 0x1002 .action 5 else s

/-- A double fault (R274), or the halt of R275: `k` is the core as the failed entry found it. -/
def doubleFault (s : State) (c : Nat) (k : Core) (orig fail addr ret : Nat) : State :=
  let base := localBase s c
  let fr := (base + 0xFFF0) % 2 ^ 36
  let s := addCycles s c 8
  if k.df then haltDouble s c else
  let s := logEv s 0x3010 .action (coreBlock c) (roleNo s c) [roleNo s c, orig, fail]
  let s := s.updCore c fun x => { x with df := true }
  if (firstOutside s c (addrsFrom fr 10)).isSome then haltDouble s c else
  let s := ownWrites s c fr (frameWords base ret k.st.toNat (k.addr 7) 0x200E (excWords (orig * 256 + fail) addr))
  let s := s.updCore c fun x => { (Core.entered { x with st := k.st, depth := k.depth } fr 0x0E) with df := true }
  match vectorOf s c 0x0E with
  | .ok h => jumpTo s c h
  | .error (f, _) => haltDouble (noteUnreadable s f) c

/-- Exception entry (R268) with its return address; it turns into a double fault where the entry itself fails (R274) (DEDUCED, log entry 15). -/
def enterExc (s : State) (c cause info addr ret : Nat) : State :=
  let k := s.core c
  let top := if k.ring ≠ 0 then (k.ssp.getD 0 0).toNat else k.addr 7
  let fr := (top + 2 ^ 36 - 10) % 2 ^ 36
  let s := addCycles s c 8
  match firstOutside s c (addrsFrom fr 10) with
  | some a => doubleFault s c k cause 0x03 a ret
  | none =>
    let s := ownWrites s c fr (frameWords (localBase s c) ret k.st.toNat (k.addr 7) (0x2000 + cause) (excWords info addr))
    let s := s.updCore c fun x => x.entered fr cause
    match vectorOf s c cause with
    | .ok h => jumpTo s c h
    | .error (f, a) => doubleFault (noteUnreadable s f) c k cause f a ret

/-- The exception that delivers a pending floating-point trap (R271): INFO gives the enabled flags that are set. -/
def fpTrap (k : Core) : Exc := ⟨0x0A, k.fps.toNat % 32 &&& bitsN k.fps.toNat 9 5, some 0⟩

/-- A precise exception of the instruction at `p` (R215, R267); a pending floating-point trap is delivered in its place (R271). -/
def raiseExc (s : State) (c p : Nat) (e : Exc) : State :=
  let k := s.core c
  let e := if k.fpp ∧ ¬ (e.cause = 0x0A ∨ e.cause = 0x0F) then fpTrap k else e
  let s := noteUnreadable (addCycles s c 1) e.cause
  match e.addr with
  | some a => enterExc s c e.cause e.info a p
  | none => let (v, s) := s.free; enterExc s c e.cause e.info (v.toNat % 2 ^ 36) p

/-! Interrupts -/

/-- The pending interrupt causes of a core, IPEND (Table 9.12): the sources of its role, its timers, and on role 0 cause 0x19 while the error queue is not empty (R431) (DEDUCED, log entry 16). -/
def pendingCauses (s : State) (c : Nat) : List Nat :=
  let k := s.core c
  let mine := (s.intq.filter fun e => e.role == roleNo s c).map (·.cause)
  let tm := (if (k.tctl.getD 0 0).getLsbD 1 then [0x12] else []) ++ (if (k.tctl.getD 1 0).getLsbD 1 then [0x13] else [])
  let eq := if roleNo s c = liveRole s 0 ∧ s.ras.eq ≠ [] then [0x19] else []
  (List.range 11).map (0x11 + ·) |>.filter fun x => (mine ++ tm ++ eq).contains x

/-- IPEND as a word. -/
def ipend (s : State) (c : Nat) : Nat := ((pendingCauses s c).map fun x => 2 ^ (x - 0x10)).sum

/-- The enabled interrupt that is taken next: the lowest cause among IPEND AND IMASK, while IE = 1 (R269). -/
def nextInterrupt (s : State) (c : Nat) : Option Nat :=
  let k := s.core c
  if !k.ie then none else (pendingCauses s c).find? fun x => k.imask.getLsbD (x - 0x10)

/-- The source of a cause on a role that is delivered first: vector completions lowest queue first (R267), others in order. -/
def firstSource (s : State) (role cause : Nat) : Option IntSource :=
  let l := s.intq.filter fun e => e.role == role && e.cause == cause
  if cause = 0x11 then minBy (fun e => e.info.toNat % 16) l else l.head?

/-- Whether a core executes: it runs, it has not halted, and its clock is not stopped by DOZE (R347) (DESIGN CHOICE, log entry 2) (DEDUCED, log entry 13). -/
def coreRuns (s : State) (c : Nat) : Bool := let k := s.core c; k.running && !k.halted && (c == 17 || s.power.st != .doze)

/-- A floating-point trap entered in place of a late bus error: the late errors stay queued until RETX takes back the frame that the entry wrote (R271, Table 9.7) (DEDUCED, log entry 15). -/
def holdLate (s : State) (c : Nat) : State := s.updCore c fun k => { k with lbeHold := k.a[7]? }

/-- The late bus errors that may be taken now (R271, R272). -/
def Core.lateDue (k : Core) : List LateError := if k.lbeHold.isSome then [] else k.lbe

/-- The next event at an instruction boundary is taken: a late bus error first, then the enabled interrupt (R267, R269, R271, R272). A core in WAIT returns behind it (R255). -/
def takeEvent (s : State) (c : Nat) : State :=
  let k := s.core c
  if !coreRuns s c then s else
  let ret := if k.waiting ∧ k.lateDue = [] then (k.pc.toNat + 1) % 2 ^ 36 else k.pc.toNat
  match k.lateDue, nextInterrupt s c with
  | [], none => s
  | e :: rest, _ =>
    if k.fpp then let t := fpTrap k; holdLate (enterExc s c t.cause t.info 0 k.pc.toNat) c else
    let info := e.kind.toNat * 4096 + rest.length * 256 + min 15 k.lbeLost
    enterExc (s.updCore c fun k => { k with lbe := rest, lbeLost := 0 }) c 0x0C info e.addr.toNat ret
  | [], some cause =>
    if k.fpp then let t := fpTrap k; enterExc s c t.cause t.info 0 ret else
    match firstSource s (roleNo s c) cause with
    | none => enterExc s c cause (if cause = 0x19 then 0x1000 else 0) 0 ret
    | some e => enterExc { s with intq := s.intq.erase e } c cause e.info.toNat e.addr.toNat ret

/-- Whether an event is taken at a core's next instruction boundary: a late bus error, or an enabled interrupt (R269). -/
def eventDue (s : State) (c : Nat) : Bool := !(s.core c).lateDue.isEmpty || (nextInterrupt s c).isSome

/-- A late bus error joins the core's queue of 4, or is counted in LOST (R272). -/
def queueLate (s : State) (c kind addr : Nat) : State :=
  s.updCore c fun k => if k.lbe.length ≥ 4 then { k with lbeLost := min 15 (k.lbeLost + 1) }
    else { k with lbe := k.lbe ++ [(⟨BitVec.ofNat 4 kind, BitVec.ofNat 36 addr⟩ : LateError)] }

/-! Instructions -/

/-- What an executed instruction does: on the core alone (an error is the cause it raises), or on the machine. -/
inductive Act where
  | core (f : Core → Except Nat Core)
  | machine (f : Ctx → State → Res)

/-- An instruction: its encoding (form, major code, operand byte or sub, immediate), its count, the entries it needs and leaves in their place, the entries it reads counted from the top, and what it does. -/
structure CoreOp where
  long   : Bool
  major  : Nat
  low    : Nat
  imm    : Nat
  count  : Nat
  need   : Nat
  leave  : Nat
  reads  : List Nat
  rep    : Bool
  act    : Act

/-- Words of an instruction. -/
def CoreOp.len (o : CoreOp) : Nat := if o.long then 2 else 1

/-- The first word of an instruction with a condition (R231). -/
def CoreOp.word (o : CoreOp) (cond : Cond) : Nat :=
  if o.long then 0x8000 + condC4 cond * 0x800 + o.major * 16 + o.low else (condC2 cond).getD 0 * 0x2000 + o.major * 256 + o.low

/-- Whether a condition can be encoded in the instruction's form (R211). -/
def condFits (o : CoreOp) (cond : Cond) : Bool := o.long || (condC2 cond).isSome

/-- Whether an entry that the instruction reads is pending (R217). -/
def readsPending (k : Core) (o : CoreOp) : Bool :=
  k.far.any fun f => o.reads.any fun i => i < k.depth && (k.depth - 1 - i == f.pos || (f.dbl && k.depth - 1 - i == f.pos + 1))

/-- An instruction executed on a stack that holds `lim` entries: underflow, overflow, the far-data wait, then its effect (R202, R217, R269). -/
def runOp (o : CoreOp) (x : Ctx) (s : State) : Res :=
  let k := s.core x.c
  if k.depth < o.need then .exc ⟨0x06, k.depth, some 0⟩
  else if k.stack.length < k.depth - o.need + o.leave then .exc ⟨0x05, k.depth, some 0⟩
  else if readsPending k o then .wait
  else match o.act with
    | .core f => match f k with
      | .ok k' => .done (s.updCore x.c fun _ => k') none
      | .error cause => .exc ⟨cause, if cause = 0x0B then x.word else 0, some 0⟩
    | .machine f => f x s

/-- The address or window fault of the fetch of an instruction word (R218, R263), or its machine check (R50). -/
def fetchFault (s : State) (c a : Nat) : Option Exc :=
  let info := accessInfo false true false
  if !fetchable s c a then some ⟨0x03, info, some a⟩
  else if !winGrants (s.core c) 2 [a] then some ⟨0x04, info, some a⟩
  else if isLocal s c a && poisoned s (ownKey c a) then some ⟨0x0F, info, some a⟩
  else none

/-- An instruction has issued and is done: the PC goes on, a repetition (`rep`: REPA was 1 at its issue) is counted (R248), and the cycles are counted (R214). -/
def finish (s : State) (c len count : Nat) (rep : Bool) (pc : Option Nat) : State :=
  let s := addCycles s c count
  let k := s.core c
  if rep then
    let s := s.updCore c fun k => { k with rc := k.rc - 1 }
    if k.rc = 1 then winAdvance (s.updCore c fun k => k.setSt 9 9 0) c len else s
  else match pc with
    | some a => jumpTo s c a
    | none => winAdvance s c len

/-- The end of an executed instruction. -/
def endRes (s : State) (c p len count : Nat) : Res → State
  | .done s' pc => finish s' c len count (s.core c).repa pc
  | .exc e => raiseExc s c p e
  | .trap code =>
    let k := s.core c
    if k.fpp then raiseExc s c p (fpTrap k)
    else enterExc (addCycles s c 2) c 0x10 code 0 ((p + len) % 2 ^ 36)
  | .wait => s.updCore c fun k => { k with stalled := true }

/-- What makes an instruction a decode fault beside its encoding (R213): a privilege (0x02) or absence from the AOC (0x01); `imm` marks a fault that only the second word shows (R261). -/
structure Decodes where
  fault : State → Nat → Option Nat
  imm   : Bool := false

/-- An instruction that never faults at decode. -/
def plain : Decodes := { fault := fun _ _ => none }
/-- An instruction that the AOC lacks (Table 7.13). -/
def noAoc : Decodes := { fault := fun _ c => if c = 17 then some 0x01 else none }
/-- An instruction that only rings up to `r` may use (Table 9.1). -/
def rings (r : Nat) : Decodes := { fault := fun s c => if (s.core c).ring > r then some 0x02 else none }

/-- A core at an issue: it waits for nothing. -/
def Core.issuing (k : Core) : Core := { k with stalled := false, waiting := false }

/-- A repetition with RC = 0 runs none: the repeated word is skipped (R248, R250). -/
def skipRepeat (s : State) (c : Nat) : State := winAdvance (s.updCore c fun k => k.setSt 9 9 0) c 1

/-- A core issues an instruction (R211 to R217, R269): an event that is due comes first, then its fetch, its decode faults, its condition, its execution. A core that is not running issues nothing; a form that cannot be repeated does not issue while a repetition is in progress (DESIGN CHOICE, log entry 5) (DEDUCED, log entry 13) (DEDUCED, log entry 14) (DEDUCED, log entry 15). -/
def issueWith (o : CoreOp) (dec : Decodes) (c : CoreId) (cond : Cond) (s : State) : Out :=
  let k := s.core c.val
  let p := k.pc.toNat
  if !condFits o cond then .fault .illFormed
  else if !coreRuns s c.val then ok s
  else if eventDue s c.val then ok (takeEvent s c.val)
  else
    let w := o.word cond
    let s0 := s.updCore c.val Core.issuing
    let early := if dec.imm then none else dec.fault s c.val
    let late := if dec.imm then dec.fault s c.val else none
    match fetchFault s c.val p with
    | some e => ok (raiseExc s0 c.val p e)
    | none => if k.repa && !o.rep then ok s else if k.repa && k.rc == 0 then ok (skipRepeat s0 c.val) else match early with
      | some cause => ok (raiseExc s0 c.val p ⟨cause, w, some 0⟩)
      | none => match if o.long then fetchFault s c.val ((p + 1) % 2 ^ 36) else none with
        | some e => ok (raiseExc s0 c.val p e)
        | none => match late with
          | some cause => ok (raiseExc s0 c.val p ⟨cause, w, some 0⟩)
          | none =>
            if condHolds k cond then ok (endRes s0 c.val p o.len o.count (runOp o ⟨c.val, p, o.len, w, none⟩ s0))
            else ok (finish s0 c.val o.len o.count k.repa none)

/-- An instruction of every ring and every core is issued. -/
def issue (o : CoreOp) (c : CoreId) (cond : Cond) (s : State) : Out := issueWith o plain c cond s

end Sys2Proof.Machine
end

