-- ==== Sys2Proof/Machine/CoreStack.lean ====
section
/-! DEFINITION. The stack group and the constants of a control core (R235, R236). -/
namespace Sys2Proof.Machine
open Sys2Proof

/-- A short form on the core alone that reads the entries it needs. -/
def coreOp (major low count need leave : Nat) (f : Core → Except Nat Core) : CoreOp :=
  ⟨false, major, low, 0, count, need, leave, List.range need, true, .core f⟩

/-- An instruction that replaces its entries by entries it computes from them; no flag changes. -/
def stackOp (major low need leave : Nat) (f : Core → List Word) : CoreOp :=
  coreOp major low 1 need leave fun k => .ok (k.replace need (f k))

/-- The entries of a reordering, counted from the top, that it reads, moves or pops: those that do not stay in their place, and those that it copies (R217). -/
def touched (need : Nat) (order : List Nat) : List Nat :=
  ((List.range need).filter fun i => order[i]? != some i || (order.drop need).contains i).map fun i => need - 1 - i

/-- Entries named by their places among the top `need`, 0 the deepest, in the order they are left. -/
def shuffle (low need : Nat) (order : List Nat) : CoreOp :=
  { stackOp 0 low need order.length (fun k => order.map fun i => wd (k.arg need i)) with reads := touched need order }

/-- PICK k: entry k from the top is pushed; only that entry is read. -/
def pickOp (k : Nat) : CoreOp :=
  { stackOp 0 (0x10 + k) (k + 1) (k + 2) (fun x => (List.range (k + 1)).map (fun i => wd (x.arg (k + 1) i)) ++ [wd (x.arg (k + 1) 0)]) with reads := [k] }

/-- TOA An (R232): An takes the address in the top three entries, without a step. -/
def toaOp (n : Nat) : CoreOp := coreOp 0 (0x20 + n) 1 3 0 fun k => .ok ((k.replace 3 []).setAddr n (k.argAddr 3 0))

/-- FROMA An: the address is pushed (R232). -/
def fromaOp (n : Nat) : CoreOp := stackOp 0 (0x28 + n) 0 3 fun k => addrEntries (k.addr n)

/-- PSH v: the byte, sign-extended. -/
def pshOp (v : Nat) : CoreOp := stackOp 6 v 0 1 fun _ => [wd (ofSigned 16 (toSigned 8 v))]

/-- LDH v: the high byte of the top entry. -/
def ldhOp (v : Nat) : CoreOp := stackOp 7 v 1 1 fun k => [wd (v * 256 + k.arg 1 0 % 256)]

/-- The STK group by its operand byte (Table 8.2); none for a reserved byte. -/
def stkOp (b : Nat) : Option CoreOp :=
  match b with
  | 0x00 => some (shuffle 0x00 0 [])
  | 0x01 => some (shuffle 0x01 1 [0, 0])
  | 0x02 => some (shuffle 0x02 1 [])
  | 0x03 => some (shuffle 0x03 2 [1, 0])
  | 0x04 => some (shuffle 0x04 2 [0, 1, 0])
  | 0x05 => some (shuffle 0x05 3 [1, 2, 0])
  | 0x06 => some (shuffle 0x06 2 [1])
  | 0x07 => some (shuffle 0x07 2 [1, 0, 1])
  | 0x09 => some (shuffle 0x09 2 [0, 1, 0, 1])
  | 0x0A => some (shuffle 0x0A 2 [])
  | 0x0B => some (shuffle 0x0B 4 [2, 3, 0, 1])
  | 0x0C => some (shuffle 0x0C 4 [0, 1, 2, 3, 0, 1])
  | _ =>
    if 0x10 ≤ b ∧ b < 0x20 then some (pickOp (b - 0x10))
    else if 0x20 ≤ b ∧ b < 0x28 then some (toaOp (b - 0x20))
    else if 0x28 ≤ b ∧ b < 0x30 then some (fromaOp (b - 0x28))
    else none

/-- NOP: ( -- ). -/
def execNop (c : CoreId) (cond : Cond) (s : State) : Out := issue (shuffle 0x00 0 []) c cond s
/-- DUP: ( a -- a a ). -/
def execDup (c : CoreId) (cond : Cond) (s : State) : Out := issue (shuffle 0x01 1 [0, 0]) c cond s
/-- DROP: ( a -- ). -/
def execDrop (c : CoreId) (cond : Cond) (s : State) : Out := issue (shuffle 0x02 1 []) c cond s
/-- SWAP: ( a b -- b a ). -/
def execSwap (c : CoreId) (cond : Cond) (s : State) : Out := issue (shuffle 0x03 2 [1, 0]) c cond s
/-- OVER: ( a b -- a b a ). -/
def execOver (c : CoreId) (cond : Cond) (s : State) : Out := issue (shuffle 0x04 2 [0, 1, 0]) c cond s
/-- ROT: ( a b c -- b c a ). -/
def execRot (c : CoreId) (cond : Cond) (s : State) : Out := issue (shuffle 0x05 3 [1, 2, 0]) c cond s
/-- NIP: ( a b -- b ). -/
def execNip (c : CoreId) (cond : Cond) (s : State) : Out := issue (shuffle 0x06 2 [1]) c cond s
/-- TUCK: ( a b -- b a b ). -/
def execTuck (c : CoreId) (cond : Cond) (s : State) : Out := issue (shuffle 0x07 2 [1, 0, 1]) c cond s
/-- DUP2: ( d -- d d ). -/
def execDup2 (c : CoreId) (cond : Cond) (s : State) : Out := issue (shuffle 0x09 2 [0, 1, 0, 1]) c cond s
/-- DROP2: ( d -- ). -/
def execDrop2 (c : CoreId) (cond : Cond) (s : State) : Out := issue (shuffle 0x0A 2 []) c cond s
/-- SWAP2: ( d e -- e d ). -/
def execSwap2 (c : CoreId) (cond : Cond) (s : State) : Out := issue (shuffle 0x0B 4 [2, 3, 0, 1]) c cond s
/-- OVER2: ( d e -- d e d ). -/
def execOver2 (c : CoreId) (cond : Cond) (s : State) : Out := issue (shuffle 0x0C 4 [0, 1, 2, 3, 0, 1]) c cond s
/-- PICK k: ( x_k … x_0 -- x_k … x_0 x_k ). -/
def execPick (c : CoreId) (cond : Cond) (k : Fin 16) (s : State) : Out := issue (pickOp k.val) c cond s
/-- TOA An: ( ad -- ), An := ad. -/
def execToa (c : CoreId) (cond : Cond) (n : Fin 8) (s : State) : Out := issue (toaOp n.val) c cond s
/-- FROMA An: ( -- ad ). -/
def execFroma (c : CoreId) (cond : Cond) (n : Fin 8) (s : State) : Out := issue (fromaOp n.val) c cond s
/-- PSH v: ( -- sext(v) ). -/
def execPsh (c : CoreId) (cond : Cond) (v : Byte) (s : State) : Out := issue (pshOp v.toNat) c cond s
/-- LDH v: ( x -- x′ ), the byte v above x[7:0]. -/
def execLdh (c : CoreId) (cond : Cond) (v : Byte) (s : State) : Out := issue (ldhOp v.toNat) c cond s
/-- PSHW imm: ( -- imm16 ), 2 cycles. -/
def execPshw (c : CoreId) (cond : Cond) (imm : Word) (s : State) : Out := issue ({ stackOp 0 0 0 1 (fun _ => [imm]) with long := true, imm := imm.toNat, count := 2, rep := false }) c cond s

end Sys2Proof.Machine
end

