-- ==== Sys2Proof/Machine/CoreAlu.lean ====
section
/-! DEFINITION. Integer arithmetic and logic, shifts, multiply and divide, packed decimal, bits and CRC of a control core (R237 to R244). -/
namespace Sys2Proof.Machine
open Sys2Proof

/-- The width that W selects. -/
def wWidth (w : Bool) : Nat := if w then 32 else 16
/-- Entries of a value of the width. -/
def wWords (w : Bool) : Nat := if w then 2 else 1
/-- A value of the width among the top `n` entries, from entry `i` on. -/
def Core.argW (k : Core) (w : Bool) (n i : Nat) : Nat := if w then k.arg32 n i else k.arg n i

/-- An instruction that replaces its entries by a result and changes the flags it names. -/
def flagOp (major low count need leave : Nat) (f : Core → List Word × FlagUpd) : CoreOp :=
  coreOp major low count need leave fun k => let r := f k; .ok ((k.replace need r.1).flags r.2)

/-- A two-operand ALU operation of Table 8.4. -/
def alu2Op (op : Nat) (w : Bool) : CoreOp :=
  let e := wWords w
  flagOp 1 (128 * b2n w + op) 1 (2 * e) (if op = 4 then 0 else e) fun k =>
    let r := alu2 op (wWidth w) (k.argW w (2 * e) 0) (k.argW w (2 * e) e) k.cf
    ((match r.1 with | some v => entries (wWidth w) v | none => []), r.2)

/-- A one-operand ALU operation of Table 8.4. -/
def alu1Op (op : Nat) (w : Bool) : CoreOp :=
  flagOp 1 (128 * b2n w + op) 1 (wWords w) (wWords w) fun k => let r := alu1 op (wWidth w) (k.argW w (wWords w) 0); (entries (wWidth w) r.1, r.2)

/-- EXTS and EXTZ: a word widened to 32 bits; Z and N of the 32-bit result (R233). -/
def extOp (sgn : Bool) : CoreOp :=
  flagOp 1 (if sgn then 0x13 else 0x14) 1 1 2 fun k =>
    let r := if sgn then ofSigned 32 (toSigned 16 (k.arg 1 0)) else k.arg 1 0
    (entries 32 r, zn 32 r)

/-- The ALU group by its operand byte; none for a reserved one. -/
def aluOp (b : Nat) : Option CoreOp :=
  let w := bitN b 7
  let op := b % 32
  if bitsN b 6 5 ≠ 0 then none
  else if [0x05, 0x06, 0x07, 0x0C, 0x0D, 0x12].contains op then some (alu1Op op w)
  else if op ≤ 0x11 then some (alu2Op op w)
  else if (op = 0x13 ∨ op = 0x14) ∧ !w then some (extOp (op == 0x13))
  else none

/-- The ALU operation that an ALUI operation names (R238). -/
def aluiSel (op : Nat) : Nat := if op ≤ 4 then op else op + 3

/-- ALUI (R238): imm16 is operand b, sign-extended for ADD to CMP and zero-extended for AND, OR and XOR. -/
def aluiOp (op : Nat) (w : Bool) (imm : Nat) : CoreOp :=
  let e := wWords w
  let b := if w ∧ op ≤ 4 then ofSigned 32 (toSigned 16 imm) else imm
  { flagOp 1 (8 * b2n w + op) 2 e (if op = 4 then 0 else e) (fun k =>
      let r := alu2 (aluiSel op) (wWidth w) (k.argW w e 0) b k.cf
      ((match r.1 with | some v => entries (wWidth w) v | none => []), r.2)) with long := true, imm := imm, rep := false }

/-- SHF (R239): a count of 0 takes the count from the top entry, bits [5:0]. `op`: 0 to 3 words, 4 to 7 on 32 bits. -/
def shfOp (op n : Nat) : CoreOp :=
  let w := decide (4 ≤ op)
  let e := wWords w
  let need := e + (if n = 0 then 1 else 0)
  flagOp 2 (32 * op + n) 1 need e fun k =>
    let cnt := if n = 0 then k.arg need e % 64 else n
    let r := shiftF (op % 4) (wWidth w) (k.argW w need 0) cnt
    (entries (wWidth w) r.1, r.2)

/-- MD instructions without a fault. -/
def mdMulOp (b : Nat) : CoreOp :=
  match b with
  | 0 => flagOp 3 0 5 2 2 fun k => let r := mulF (k.arg 2 0) (k.arg 2 1); (entries 32 r.1, r.2)
  | 1 => flagOp 3 1 5 2 2 fun k => let r := mulsF (k.arg 2 0) (k.arg 2 1); (entries 32 r.1, r.2)
  | _ => flagOp 3 2 9 3 3 fun k => let r := mul32F (k.arg32 3 0) (k.arg 3 2); (entries 48 r.1, r.2)

/-- DIV, DIVS and REM: cause 0x09 where the divisor is 0 (R241). REM's r is one 16-bit entry, with Z and N of 16 bits (DESIGN CHOICE, log entry 55). -/
def mdDivOp (b : Nat) : CoreOp :=
  let (w, cnt, f) : Nat × Nat × (Nat → Nat → Nat × FlagUpd) := match b with
    | 0x08 => (32, 18, divF)
    | 0x09 => (32, 19, divsF)
    | _ => (16, 18, remF)
  coreOp 3 b cnt 3 (w / 16) fun k =>
    if k.arg 3 2 = 0 then .error 0x09 else
    let r := f (k.arg32 3 0) (k.arg 3 2)
    .ok ((k.replace 3 (entries w r.1)).flags r.2)

/-- The MD group by its operand byte. -/
def mdOp (b : Nat) : Option CoreOp :=
  if b ≤ 2 then some (mdMulOp b) else if 8 ≤ b ∧ b ≤ 10 then some (mdDivOp b) else none

/-- Digits of a packed-decimal value. -/
def decDigits (w : Bool) : Nat := if w then 8 else 4

/-- DADD, DADC, DSUB, DSBC, DCMP (R242). -/
def dec2Op (op : Nat) (w : Bool) : CoreOp :=
  let e := wWords w
  flagOp 4 (128 * b2n w + op) 1 (2 * e) (if op = 5 then 0 else e) fun k =>
    let a := k.argW w (2 * e) 0
    let b := k.argW w (2 * e) e
    let r := match op with
      | 0 => daddF (decDigits w) a b 0
      | 1 => daddF (decDigits w) a b (b2n k.d)
      | 3 => dsubF (decDigits w) a b (b2n k.d)
      | _ => dsubF (decDigits w) a b 0
    if op = 5 then ([], withT r.2) else (entries (wWidth w) r.1, r.2)

/-- DNEG (R242): 0 minus the operand. -/
def dnegOp (w : Bool) : CoreOp :=
  flagOp 4 (128 * b2n w + 4) 1 (wWords w) (wWords w) fun k =>
    let r := dsubF (decDigits w) 0 (k.argW w (wWords w) 0) 0
    (entries (wWidth w) r.1, r.2)

/-- CVTBD (Table 8.7): binary to 5 digits in 32 bits, or to 8 digits with V where 99,999,999 is exceeded. -/
def cvtbdOp (w : Bool) : CoreOp :=
  flagOp 4 (128 * b2n w + 6) 1 (wWords w) 2 fun k =>
    let a := k.argW w (wWords w) 0
    let r := toBcd 8 (a % 100000000)
    (entries 32 r, { z := some (r == 0), v := some (decide (99999999 < a)) })

/-- CVTDB (Table 8.7): digits to binary; digits above 9 weigh as their value and set V. -/
def cvtdbOp (w : Bool) : CoreOp :=
  flagOp 4 (128 * b2n w + 7) 1 (wWords w) (wWords w) fun k =>
    let a := k.argW w (wWords w) 0
    let r := fromBcd (decDigits w) a
    (entries (wWidth w) r, { z := some (r % 2 ^ wWidth w == 0), v := some (bcdBad (decDigits w) a) })

/-- The DEC group by its operand byte. -/
def decOp (b : Nat) : Option CoreOp :=
  let w := bitN b 7
  if bitsN b 6 3 ≠ 0 then none else
  match b % 8 with
  | 4 => some (dnegOp w)
  | 6 => some (cvtbdOp w)
  | 7 => some (cvtdbOp w)
  | op => some (dec2Op op w)

/-- BTST, BSET, BCLR, BINV n: T takes the old bit (Table 8.8). -/
def bitOp1 (op n : Nat) : CoreOp :=
  flagOp 5 (16 * op + n) 1 1 1 fun k =>
    let a := k.arg 1 0
    let r := match op with
      | 0 => a
      | 1 => setBitsN a n n 1
      | 2 => setBitsN a n n 0
      | _ => setBitsN a n n (1 - b2n (bitN a n))
    ([wd r], { t := some (bitN a n) })

/-- BREV w: the low w = n + 1 bits reversed. -/
def brevOp (n : Nat) : CoreOp :=
  flagOp 5 (0x40 + n) 1 1 1 fun k =>
    let a := k.arg 1 0
    let r := a / 2 ^ (n + 1) * 2 ^ (n + 1) + revLow (n + 1) (a % 2 ^ (n + 1))
    ([wd r], zn 16 r)

/-- The 1 bits among the low `k`. -/
def popCount (k v : Nat) : Nat := ((List.range k).filter fun i => bitN v i).length

def popcOp : CoreOp := flagOp 5 0x50 1 1 1 fun k => let r := popCount 16 (k.arg 1 0); ([wd r], zn 16 r)
def clzOp : CoreOp := flagOp 5 0x51 1 1 1 fun k =>
  let a := k.arg 1 0
  let r := if a = 0 then 16 else 15 - a.log2
  ([wd r], zn 16 r)
def parOp : CoreOp := flagOp 5 0x52 1 1 1 fun k => let a := k.arg 1 0; ([wd a], { t := some (popCount 16 a % 2 == 1) })
def pardOp : CoreOp := flagOp 5 0x53 1 2 2 fun k => let a := k.arg32 2 0; (entries 32 a, { t := some (popCount 32 a % 2 == 1) })

/-- CRC8, CRC16, CRC32 over the top entry or entries (R210, R243). -/
def crcOp (n : Nat) : CoreOp :=
  coreOp 5 (0x60 + n) 1 (if n = 2 then 2 else 1) 0 fun k =>
    match n with
    | 0 => .ok ((k.crc 8 (k.arg 1 0 % 256)).replace 1 [])
    | 1 => .ok ((k.crc 16 (k.arg 1 0)).replace 1 [])
    | _ => .ok ((k.crc 32 (k.arg32 2 0)).replace 2 [])

/-- CRCI n (R244): n + 1 steps over imm16[15 : 15 − n]. -/
def crciOp (n imm : Nat) : CoreOp :=
  { coreOp 0x11 n 2 0 0 (fun k => .ok (k.crc (n + 1) (imm >>> (15 - n)))) with long := true, imm := imm, rep := false }

/-- The BIT group by its operand byte. -/
def bitOp (b : Nat) : Option CoreOp :=
  let n := b % 16
  match b / 16 with
  | 4 => some (brevOp n)
  | 5 => match n with | 0 => some popcOp | 1 => some clzOp | 2 => some parOp | 3 => some pardOp | _ => none
  | 6 => if n ≤ 2 then some (crcOp n) else none
  | op => if op ≤ 3 then some (bitOp1 op n) else none

/-- ADD: ( a b -- a+b ). -/
def execAdd (c : CoreId) (cond : Cond) (w : Bool) (s : State) : Out := issue (alu2Op 0x00 w) c cond s
/-- ADC: ( a b -- a+b+C ). -/
def execAdc (c : CoreId) (cond : Cond) (w : Bool) (s : State) : Out := issue (alu2Op 0x01 w) c cond s
/-- SUB: ( a b -- a−b ). -/
def execSub (c : CoreId) (cond : Cond) (w : Bool) (s : State) : Out := issue (alu2Op 0x02 w) c cond s
/-- SBC: ( a b -- a−b−C ). -/
def execSbc (c : CoreId) (cond : Cond) (w : Bool) (s : State) : Out := issue (alu2Op 0x03 w) c cond s
/-- CMP: ( a b -- ). -/
def execCmp (c : CoreId) (cond : Cond) (w : Bool) (s : State) : Out := issue (alu2Op 0x04 w) c cond s
/-- AND. -/
def execAnd (c : CoreId) (cond : Cond) (w : Bool) (s : State) : Out := issue (alu2Op 0x08 w) c cond s
/-- OR. -/
def execOr (c : CoreId) (cond : Cond) (w : Bool) (s : State) : Out := issue (alu2Op 0x09 w) c cond s
/-- XOR. -/
def execXor (c : CoreId) (cond : Cond) (w : Bool) (s : State) : Out := issue (alu2Op 0x0A w) c cond s
/-- ANDN: a AND NOT b. -/
def execAndn (c : CoreId) (cond : Cond) (w : Bool) (s : State) : Out := issue (alu2Op 0x0B w) c cond s
/-- MINS: signed minimum. -/
def execMins (c : CoreId) (cond : Cond) (w : Bool) (s : State) : Out := issue (alu2Op 0x0E w) c cond s
/-- MAXS: signed maximum. -/
def execMaxs (c : CoreId) (cond : Cond) (w : Bool) (s : State) : Out := issue (alu2Op 0x0F w) c cond s
/-- MINU: unsigned minimum. -/
def execMinu (c : CoreId) (cond : Cond) (w : Bool) (s : State) : Out := issue (alu2Op 0x10 w) c cond s
/-- MAXU: unsigned maximum. -/
def execMaxu (c : CoreId) (cond : Cond) (w : Bool) (s : State) : Out := issue (alu2Op 0x11 w) c cond s
/-- NEG: ( a -- 0−a ). -/
def execNeg (c : CoreId) (cond : Cond) (w : Bool) (s : State) : Out := issue (alu1Op 0x05 w) c cond s
/-- INC: ( a -- a+1 ). -/
def execInc (c : CoreId) (cond : Cond) (w : Bool) (s : State) : Out := issue (alu1Op 0x06 w) c cond s
/-- DCR: ( a -- a−1 ). -/
def execDcr (c : CoreId) (cond : Cond) (w : Bool) (s : State) : Out := issue (alu1Op 0x07 w) c cond s
/-- NOT. -/
def execNot (c : CoreId) (cond : Cond) (w : Bool) (s : State) : Out := issue (alu1Op 0x0C w) c cond s
/-- TST: ( a -- a ). -/
def execTst (c : CoreId) (cond : Cond) (w : Bool) (s : State) : Out := issue (alu1Op 0x0D w) c cond s
/-- ABS. -/
def execAbs (c : CoreId) (cond : Cond) (w : Bool) (s : State) : Out := issue (alu1Op 0x12 w) c cond s
/-- EXTS: ( a -- d ), sign-extended. -/
def execExts (c : CoreId) (cond : Cond) (s : State) : Out := issue (extOp true) c cond s
/-- EXTZ: ( a -- d ), zero-extended. -/
def execExtz (c : CoreId) (cond : Cond) (s : State) : Out := issue (extOp false) c cond s
/-- ALUI ADD: ( a -- a op imm16 ). -/
def execAluiAdd (c : CoreId) (cond : Cond) (w : Bool) (imm : Word) (s : State) : Out := issue (aluiOp 0 w imm.toNat) c cond s
/-- ALUI ADC: ( a -- a op imm16 ). -/
def execAluiAdc (c : CoreId) (cond : Cond) (w : Bool) (imm : Word) (s : State) : Out := issue (aluiOp 1 w imm.toNat) c cond s
/-- ALUI SUB: ( a -- a op imm16 ). -/
def execAluiSub (c : CoreId) (cond : Cond) (w : Bool) (imm : Word) (s : State) : Out := issue (aluiOp 2 w imm.toNat) c cond s
/-- ALUI SBC: ( a -- a op imm16 ). -/
def execAluiSbc (c : CoreId) (cond : Cond) (w : Bool) (imm : Word) (s : State) : Out := issue (aluiOp 3 w imm.toNat) c cond s
/-- ALUI CMP: ( a -- ). -/
def execAluiCmp (c : CoreId) (cond : Cond) (w : Bool) (imm : Word) (s : State) : Out := issue (aluiOp 4 w imm.toNat) c cond s
/-- ALUI AND: ( a -- a op imm16 ). -/
def execAluiAnd (c : CoreId) (cond : Cond) (w : Bool) (imm : Word) (s : State) : Out := issue (aluiOp 5 w imm.toNat) c cond s
/-- ALUI OR: ( a -- a op imm16 ). -/
def execAluiOr (c : CoreId) (cond : Cond) (w : Bool) (imm : Word) (s : State) : Out := issue (aluiOp 6 w imm.toNat) c cond s
/-- ALUI XOR: ( a -- a op imm16 ). -/
def execAluiXor (c : CoreId) (cond : Cond) (w : Bool) (imm : Word) (s : State) : Out := issue (aluiOp 7 w imm.toNat) c cond s
/-- SHL. -/
def execShl (c : CoreId) (cond : Cond) (n : Fin 32) (s : State) : Out := issue (shfOp 0 n.val) c cond s
/-- SHR. -/
def execShr (c : CoreId) (cond : Cond) (n : Fin 32) (s : State) : Out := issue (shfOp 1 n.val) c cond s
/-- SAR. -/
def execSar (c : CoreId) (cond : Cond) (n : Fin 32) (s : State) : Out := issue (shfOp 2 n.val) c cond s
/-- ROL. -/
def execRol (c : CoreId) (cond : Cond) (n : Fin 32) (s : State) : Out := issue (shfOp 3 n.val) c cond s
/-- SHL.d -/
def execShlD (c : CoreId) (cond : Cond) (n : Fin 32) (s : State) : Out := issue (shfOp 4 n.val) c cond s
/-- SHR.d -/
def execShrD (c : CoreId) (cond : Cond) (n : Fin 32) (s : State) : Out := issue (shfOp 5 n.val) c cond s
/-- SAR.d -/
def execSarD (c : CoreId) (cond : Cond) (n : Fin 32) (s : State) : Out := issue (shfOp 6 n.val) c cond s
/-- ROL.d -/
def execRolD (c : CoreId) (cond : Cond) (n : Fin 32) (s : State) : Out := issue (shfOp 7 n.val) c cond s
/-- MUL: ( a b -- d ), unsigned. -/
def execMul (c : CoreId) (cond : Cond) (s : State) : Out := issue (mdMulOp 0) c cond s
/-- MULS: ( a b -- d ), signed. -/
def execMuls (c : CoreId) (cond : Cond) (s : State) : Out := issue (mdMulOp 1) c cond s
/-- MUL32: ( d b -- p0 p1 p2 ). -/
def execMul32 (c : CoreId) (cond : Cond) (s : State) : Out := issue (mdMulOp 2) c cond s
/-- DIV: ( d b -- q ), unsigned. -/
def execDiv (c : CoreId) (cond : Cond) (s : State) : Out := issue (mdDivOp 0x08) c cond s
/-- DIVS: ( d b -- q ), signed. -/
def execDivs (c : CoreId) (cond : Cond) (s : State) : Out := issue (mdDivOp 0x09) c cond s
/-- REM: ( d b -- r ). -/
def execRem (c : CoreId) (cond : Cond) (s : State) : Out := issue (mdDivOp 0x0A) c cond s
/-- DADD. -/
def execDadd (c : CoreId) (cond : Cond) (w : Bool) (s : State) : Out := issue (dec2Op 0 w) c cond s
/-- DADC. -/
def execDadc (c : CoreId) (cond : Cond) (w : Bool) (s : State) : Out := issue (dec2Op 1 w) c cond s
/-- DSUB. -/
def execDsub (c : CoreId) (cond : Cond) (w : Bool) (s : State) : Out := issue (dec2Op 2 w) c cond s
/-- DSBC. -/
def execDsbc (c : CoreId) (cond : Cond) (w : Bool) (s : State) : Out := issue (dec2Op 3 w) c cond s
/-- DCMP. -/
def execDcmp (c : CoreId) (cond : Cond) (w : Bool) (s : State) : Out := issue (dec2Op 5 w) c cond s
/-- DNEG. -/
def execDneg (c : CoreId) (cond : Cond) (w : Bool) (s : State) : Out := issue (dnegOp w) c cond s
/-- CVTBD. -/
def execCvtbd (c : CoreId) (cond : Cond) (w : Bool) (s : State) : Out := issue (cvtbdOp w) c cond s
/-- CVTDB. -/
def execCvtdb (c : CoreId) (cond : Cond) (w : Bool) (s : State) : Out := issue (cvtdbOp w) c cond s
/-- BTST n. -/
def execBtst (c : CoreId) (cond : Cond) (n : Fin 16) (s : State) : Out := issue (bitOp1 0 n.val) c cond s
/-- BSET n. -/
def execBset (c : CoreId) (cond : Cond) (n : Fin 16) (s : State) : Out := issue (bitOp1 1 n.val) c cond s
/-- BCLR n. -/
def execBclr (c : CoreId) (cond : Cond) (n : Fin 16) (s : State) : Out := issue (bitOp1 2 n.val) c cond s
/-- BINV n. -/
def execBinv (c : CoreId) (cond : Cond) (n : Fin 16) (s : State) : Out := issue (bitOp1 3 n.val) c cond s
/-- BREV w, w = n + 1. -/
def execBrev (c : CoreId) (cond : Cond) (n : Fin 16) (s : State) : Out := issue (brevOp n.val) c cond s
/-- POPC. -/
def execPopc (c : CoreId) (cond : Cond) (s : State) : Out := issue popcOp c cond s
/-- CLZ. -/
def execClz (c : CoreId) (cond : Cond) (s : State) : Out := issue clzOp c cond s
/-- PAR. -/
def execPar (c : CoreId) (cond : Cond) (s : State) : Out := issue parOp c cond s
/-- PARD. -/
def execPard (c : CoreId) (cond : Cond) (s : State) : Out := issue pardOp c cond s
/-- CRC8. -/
def execCrc8 (c : CoreId) (cond : Cond) (s : State) : Out := issue (crcOp 0) c cond s
/-- CRC16. -/
def execCrc16 (c : CoreId) (cond : Cond) (s : State) : Out := issue (crcOp 1) c cond s
/-- CRC32. -/
def execCrc32 (c : CoreId) (cond : Cond) (s : State) : Out := issue (crcOp 2) c cond s
/-- CRCI n, imm. -/
def execCrci (c : CoreId) (cond : Cond) (n : Fin 16) (imm : Word) (s : State) : Out := issue (crciOp n.val imm.toNat) c cond s

end Sys2Proof.Machine
end

