-- ==== Sys2Proof/Machine/Fp.lean ====
section
/-! DEFINITION. Binary16 and binary32 arithmetic with four rounding modes, exact before rounding (R108 to R118), as the vector engine and the control cores share it. -/
namespace Sys2Proof.Machine
open Sys2Proof

/-- A binary format: exponent width and fraction width. -/
structure Fmt where
  ew : Nat
  mw : Nat
  deriving DecidableEq, Repr

/-- binary32. -/
def fmtS : Fmt := ⟨8, 23⟩
/-- binary16. -/
def fmtH : Fmt := ⟨5, 10⟩

/-- Rounding modes (Table 3.3, RND). -/
inductive Rnd where
  | rne | rtz | rup | rdn
  deriving DecidableEq, Repr

def rndOf (n : Nat) : Rnd := match n % 4 with | 0 => .rne | 1 => .rtz | 2 => .rup | _ => .rdn

/-! Flags in the places of FPF (Table 3.5). -/
def flIX : Nat := 1
def flUF : Nat := 2
def flOF : Nat := 4
def flDZ : Nat := 8
def flIV : Nat := 16
def flFI : Nat := 32
def flFO : Nat := 64

/-- A number read from a format: NaN, infinity, or (−1)^neg × m × 2^e. -/
inductive FVal where
  | nan
  | inf (neg : Bool)
  | fin (neg : Bool) (m : Nat) (e : Int)
  deriving DecidableEq, Repr

/-- A result: its bits, its flags, and whether the exact value's magnitude lay below the smallest normal number (R209, R256). -/
structure FOut where
  bits  : Nat
  flags : Nat
  tiny  : Bool
  deriving DecidableEq, Repr

def Fmt.bias (f : Fmt) : Nat := 2 ^ (f.ew - 1) - 1
def Fmt.expMax (f : Fmt) : Nat := 2 ^ f.ew - 1
def Fmt.signBit (f : Fmt) : Nat := 2 ^ (f.ew + f.mw)
def Fmt.expOf (f : Fmt) (x : Nat) : Nat := bitsN x (f.ew + f.mw - 1) f.mw
def Fmt.fracOf (f : Fmt) (x : Nat) : Nat := x % 2 ^ f.mw
def Fmt.negOf (f : Fmt) (x : Nat) : Bool := bitN x (f.ew + f.mw)
def Fmt.quiet (f : Fmt) : Nat := 2 ^ (f.mw - 1)
/-- Infinity's magnitude bits. -/
def Fmt.infBits (f : Fmt) : Nat := f.expMax * 2 ^ f.mw
/-- The canonical quiet NaN (R111). -/
def Fmt.qnan (f : Fmt) : Nat := f.infBits + f.quiet
/-- The largest finite magnitude. -/
def Fmt.maxFin (f : Fmt) : Nat := f.infBits - 1
def Fmt.sgn (f : Fmt) (neg : Bool) : Nat := if neg then f.signBit else 0
def Fmt.isNaN (f : Fmt) (x : Nat) : Bool := f.expOf x == f.expMax && f.fracOf x != 0
def Fmt.isSNaN (f : Fmt) (x : Nat) : Bool := f.isNaN x && f.fracOf x < f.quiet
def Fmt.isSub (f : Fmt) (x : Nat) : Bool := f.expOf x == 0 && f.fracOf x != 0

/-- A subnormal replaced by a zero of the same sign (R109), with FI. -/
def Fmt.flush (f : Fmt) (x : Nat) : Nat × Nat := if f.isSub x then (f.sgn (f.negOf x), flFI) else (x, 0)

/-- The value that bits encode. -/
def Fmt.val (f : Fmt) (x : Nat) : FVal :=
  if f.expOf x = f.expMax then (if f.fracOf x = 0 then .inf (f.negOf x) else .nan)
  else if f.expOf x = 0 then .fin (f.negOf x) (f.fracOf x) (1 - (f.bias : Int) - f.mw)
  else .fin (f.negOf x) (f.fracOf x + 2 ^ f.mw) ((f.expOf x : Int) - f.bias - f.mw)

/-- Whether a discarded part rounds the magnitude up: `half` compares it with half a unit (0 below, 1 equal, 2 above). -/
def roundUp (r : Rnd) (neg odd inexact : Bool) (half : Nat) : Bool :=
  match r with
  | .rne => half = 2 ∨ (half = 1 ∧ odd)
  | .rtz => false
  | .rup => inexact && !neg
  | .rdn => inexact && neg

/-- m × 2^(-k) rounded to an integer, with whether it was inexact; `sticky` says that a nonzero part lies below m. -/
def roundShift (r : Rnd) (neg : Bool) (m k : Nat) (sticky : Bool) : Nat × Bool :=
  let q := m >>> k
  let rem := m % 2 ^ k
  let inexact := rem != 0 || sticky
  let half := if k = 0 then 0 else
    if rem > 2 ^ (k - 1) then 2 else if rem = 2 ^ (k - 1) then (if sticky then 2 else 1) else 0
  (if roundUp r neg (q % 2 == 1) inexact half then q + 1 else q, inexact)

/-- The exact nonzero value (−1)^neg × (m, and more below m if sticky) × 2^e rounded to a format (R110, R112). A result tiny after rounding is a zero of its sign with FO, UF and IX. The mark is for a control core (R209, R256): the exact value lies below the smallest normal number. -/
def Fmt.round (f : Fmt) (r : Rnd) (neg : Bool) (m : Nat) (e : Int) (sticky : Bool) : FOut :=
  let p := f.mw + 1
  let ext := p + 2 - min (p + 2) (m.log2 + 1)
  let m := m <<< ext
  let e := e - ext
  let k := m.log2 + 1 - p
  let (q, ix) := roundShift r neg m k sticky
  let below := decide (e + k + f.mw + f.bias < 1)
  let (q, e) := if q = 2 ^ p then (q / 2, e + k + 1) else (q, e + k)
  let le := e + f.mw + f.bias
  let s := f.sgn neg
  if le < 1 then ⟨s, flFO ||| flUF ||| flIX, true⟩
  else if (f.expMax : Int) ≤ le then
    let toInf := match r with | .rne => true | .rtz => false | .rup => !neg | .rdn => neg
    ⟨s + (if toInf then f.infBits else f.maxFin), flOF ||| flIX, false⟩
  else ⟨s + le.toNat * 2 ^ f.mw + (q - 2 ^ f.mw), if ix then flIX else 0, below⟩

/-- An exact zero of a sign. -/
def Fmt.zero (f : Fmt) (neg : Bool) : FOut := ⟨f.sgn neg, 0, false⟩

/-- NaN inputs in the order of R111; none where no input is a NaN. -/
def Fmt.nanIn (f : Fmt) (a : Nat) (rest : List Nat) : Option FOut :=
  let fl := if f.isSNaN a || rest.any f.isSNaN then flIV else 0
  if f.isNaN a then some ⟨a ||| f.quiet, fl, false⟩
  else if rest.any f.isNaN then some ⟨f.qnan, fl, false⟩
  else none

/-- The invalid operation's result (R111 step 3). -/
def Fmt.invalid (f : Fmt) : FOut := ⟨f.qnan, flIV, false⟩

/-- The exact sum of two finite numbers, rounded once (R113 for zero sums). -/
def Fmt.addFin (f : Fmt) (r : Rnd) (n1 : Bool) (m1 : Nat) (e1 : Int) (n2 : Bool) (m2 : Nat) (e2 : Int) : FOut :=
  let e := min e1 e2
  let i1 : Int := (m1 <<< (e1 - e).toNat : Nat)
  let i2 : Int := (m2 <<< (e2 - e).toNat : Nat)
  let sum := (if n1 then -i1 else i1) + (if n2 then -i2 else i2)
  if sum = 0 then f.zero (if n1 = n2 then n1 else r = .rdn)
  else f.round r (sum < 0) sum.natAbs e false

/-- a + b. -/
def Fmt.add (f : Fmt) (r : Rnd) (a b : Nat) : FOut :=
  match f.nanIn a [b] with
  | some o => o
  | none => match f.val a, f.val b with
    | .inf x, .inf y => if x = y then ⟨f.sgn x + f.infBits, 0, false⟩ else f.invalid
    | .inf x, _ => ⟨f.sgn x + f.infBits, 0, false⟩
    | _, .inf y => ⟨f.sgn y + f.infBits, 0, false⟩
    | .fin n1 m1 e1, .fin n2 m2 e2 => f.addFin r n1 m1 e1 n2 m2 e2
    | _, _ => f.invalid

/-- a × b + c, rounded once; with no c, a × b. -/
def Fmt.fma (f : Fmt) (r : Rnd) (a b : Nat) (c : Option Nat) : FOut :=
  let inv := match f.val a, f.val b with
    | .inf _, .fin _ 0 _ => true
    | .fin _ 0 _, .inf _ => true
    | _, _ => false
  match f.nanIn a (b :: c.toList) with
  | some o => if inv then { o with flags := o.flags ||| flIV } else o
  | none =>
    if inv then f.invalid else
    let pn := f.negOf a != f.negOf b
    let pinf := match f.val a, f.val b with | .inf _, _ => true | _, .inf _ => true | _, _ => false
    match c.map f.val with
    | some (.inf y) => if pinf && pn != y then f.invalid else ⟨f.sgn y + f.infBits, 0, false⟩
    | cv =>
      if pinf then ⟨f.sgn pn + f.infBits, 0, false⟩ else
      match f.val a, f.val b with
      | .fin _ m1 e1, .fin _ m2 e2 =>
        match cv with
        | some (.fin n3 m3 e3) => f.addFin r pn (m1 * m2) (e1 + e2) n3 m3 e3
        | _ => if m1 * m2 = 0 then f.zero pn else f.round r pn (m1 * m2) (e1 + e2) false
      | _, _ => f.invalid

/-- a / b. -/
def Fmt.div (f : Fmt) (r : Rnd) (a b : Nat) : FOut :=
  match f.nanIn a [b] with
  | some o => o
  | none =>
    let n := f.negOf a != f.negOf b
    match f.val a, f.val b with
    | .inf _, .inf _ => f.invalid
    | .inf _, _ => ⟨f.sgn n + f.infBits, 0, false⟩
    | _, .inf _ => f.zero n
    | .fin _ m1 e1, .fin _ m2 e2 =>
      if m2 = 0 then (if m1 = 0 then f.invalid else ⟨f.sgn n + f.infBits, flDZ, false⟩)
      else if m1 = 0 then f.zero n
      else
        let k := f.mw + 4 + (m2.log2 + 1)
        f.round r n ((m1 <<< k) / m2) (e1 - e2 - k) ((m1 <<< k) % m2 != 0)
    | _, _ => f.invalid

/-- √a. -/
def Fmt.sqrt (f : Fmt) (r : Rnd) (a : Nat) : FOut :=
  match f.nanIn a [] with
  | some o => o
  | none => match f.val a with
    | .inf n => if n then f.invalid else ⟨f.infBits, 0, false⟩
    | .fin n m e =>
      if m = 0 then f.zero n
      else if n then f.invalid
      else
        let k := f.mw + 4
        let (m, e) := if e % 2 = 0 then (m, e) else (2 * m, e - 1)
        let m := m <<< (2 * k)
        let q := isqrtGo m (m.log2 / 2 + 1) 0
        f.round r false q (e / 2 - k) (q * q != m)
    | .nan => f.invalid

/-- An order key of a number that is no NaN; −0 and +0 have the same key. -/
def Fmt.key (f : Fmt) (x : Nat) : Int := if f.negOf x then -((x % f.signBit : Nat) : Int) else ((x % f.signBit : Nat) : Int)

/-- FMIN and FMAX (R115): −0 lies below +0. -/
def Fmt.minMax (f : Fmt) (isMin : Bool) (a b : Nat) : FOut :=
  match f.nanIn a [b] with
  | some o => o
  | none =>
    let less := f.key a < f.key b || (f.key a == f.key b && f.negOf a && !f.negOf b)
    ⟨if less = isMin then a else b, 0, false⟩

/-- Kinds of compare. -/
inductive FCmp where
  | eq | lt | le
  deriving DecidableEq, Repr

/-- A compare's answer and flags (R115). -/
def Fmt.cmp (f : Fmt) (k : FCmp) (a b : Nat) : FOut :=
  if f.isNaN a || f.isNaN b then
    ⟨0, if k = .eq then (if f.isSNaN a || f.isSNaN b then flIV else 0) else flIV, false⟩
  else
    let x := f.key a
    let y := f.key b
    ⟨b2n (match k with | .eq => decide (x = y) | .lt => decide (x < y) | .le => decide (x ≤ y)), 0, false⟩

/-- Conversion between formats (R117 for NaNs). -/
def cvtFF (src dst : Fmt) (r : Rnd) (a : Nat) : FOut :=
  match src.val a with
  | .nan =>
    let pay := src.fracOf a % src.quiet
    let pay := if src.mw ≥ dst.mw then pay >>> (src.mw - dst.mw) else pay <<< (dst.mw - src.mw)
    ⟨dst.sgn (src.negOf a) + dst.qnan + pay, if src.isSNaN a then flIV else 0, false⟩
  | .inf n => ⟨dst.sgn n + dst.infBits, 0, false⟩
  | .fin n m e => if m = 0 then dst.zero n else dst.round r n m e false

/-- An integer converted to a format. -/
def cvtIF (dst : Fmt) (r : Rnd) (v : Int) : FOut :=
  if v = 0 then dst.zero false else dst.round r (v < 0) v.natAbs 0 false

/-- A number rounded to an integer and saturated to [lo, hi] (R116); the answer is the integer and the flags. -/
def cvtFI (src : Fmt) (r : Rnd) (lo hi : Int) (a : Nat) : Int × Nat :=
  match src.val a with
  | .nan => (0, flIV)
  | .inf n => (if n then lo else hi, flIV)
  | .fin n m e =>
    let (q, ix) := if 0 ≤ e then (m <<< e.toNat, false) else roundShift r n m (-e).toNat false
    let v : Int := if n then -(q : Int) else q
    if v > hi then (hi, flIV) else if v < lo then (lo, flIV) else (v, if ix then flIX else 0)

end Sys2Proof.Machine
end

