-- ==== Sys2Proof/Machine/CoreFp.lean ====
section
/-! DEFINITION. Control-core floating point (R209, R256, R257, R270). -/
namespace Sys2Proof.Machine
open Sys2Proof

/-- The format that a format bit selects. -/
def fFmt (s : Bool) : Fmt := if s then fmtS else fmtH

/-- The rounding mode of FPS.RND. -/
def Core.rnd (k : Core) : Rnd := rndOf (bitsN k.fps.toNat 11 10)

/-- Flags raised by an operation: sticky in FPS, and FPP where one is enabled while FTE = 1 (R209, R270). -/
def Core.raise (k : Core) (fl : Nat) : Core :=
  let fl := fl % 32
  let hit := fl &&& bitsN k.fps.toNat 9 5
  let k := { k with fps := wd (k.fps.toNat ||| fl) }
  if k.fte ∧ hit ≠ 0 then k.setSt 10 10 1 else k

/-- A floating-point instruction: the FP subnormal trap (cause 0x0B) on a subnormal operand of a format, or on a result below the smallest normal number (R209, R256); else its result, flags and ST changes. -/
def fpOp (major low count need leave : Nat) (ops : Core → List (Fmt × Nat)) (f : Core → List Word × Nat × Bool × FlagUpd) : CoreOp :=
  coreOp major low count need leave fun k =>
    if (ops k).any fun o => o.1.isSub o.2 then .error 0x0B else
    let r := f k
    if r.2.2.1 then .error 0x0B else .ok (((k.replace need r.1).raise r.2.1).flags r.2.2.2)

/-- A result of a format as entries. -/
def fRes (s : Bool) (o : FOut) : List Word × Nat × Bool × FlagUpd := (entries (if s then 32 else 16) o.bits, o.flags, o.tiny, {})

/-- A two-operand result: 0 FADD, 1 FSUB, 2 FMUL, 3 FDIV, 6 FMIN, 7 FMAX (Table 8.15). -/
def fCalc2 (op : Nat) (m : Fmt) (r : Rnd) (a b : Nat) : FOut :=
  match op with
  | 0 => m.add r a b
  | 1 => m.add r a (b ^^^ m.signBit)
  | 2 => m.fma r a b none
  | 3 => m.div r a b
  | 6 => m.minMax true a b
  | _ => m.minMax false a b

/-- Counts of the two-operand operations, .h and .s. -/
def fCount2 (op : Nat) (s : Bool) : Nat :=
  match op with
  | 2 => if s then 7 else 4
  | 3 => if s then 27 else 14
  | _ => if s then 4 else 3

/-- FADD, FSUB, FMUL, FDIV, FMIN, FMAX on two stack operands. -/
def fpa2Op (op : Nat) (s : Bool) : CoreOp :=
  let e := wWords s
  fpOp 0x0F (128 * b2n s + op) (fCount2 op s) (2 * e) e (fun k => [(fFmt s, k.argW s (2 * e) 0), (fFmt s, k.argW s (2 * e) e)]) fun k =>
    fRes s (fCalc2 op (fFmt s) k.rnd (k.argW s (2 * e) 0) (k.argW s (2 * e) e))

/-- FABS and FNEG: only the sign changes. -/
def fpa1Op (op : Nat) (s : Bool) : CoreOp :=
  let e := wWords s
  fpOp 0x0F (128 * b2n s + op) 1 e e (fun k => [(fFmt s, k.argW s e 0)]) fun k =>
    let a := k.argW s e 0
    let sb := (fFmt s).signBit
    fRes s ⟨if op = 8 then a % sb else if a < sb then a + sb else a - sb, 0, false⟩

/-- FSQRT.s. -/
def fsqrtOp : CoreOp := fpOp 0x0F 0x84 27 2 2 (fun k => [(fmtS, k.arg32 2 0)]) fun k => fRes true (fmtS.sqrt k.rnd (k.arg32 2 0))

/-- FMA: g × h + k, one rounding. -/
def fmaOp : CoreOp :=
  fpOp 0x0F 0x85 9 6 2 (fun k => [(fmtS, k.arg32 6 0), (fmtS, k.arg32 6 2), (fmtS, k.arg32 6 4)]) fun k =>
    fRes true (fmtS.fma k.rnd (k.arg32 6 0) (k.arg32 6 2) (some (k.arg32 6 4)))

/-- The FPA group by its operand byte. -/
def fpaOp (b : Nat) : Option CoreOp :=
  let s := bitN b 7
  if bitsN b 6 4 ≠ 0 then none else
  match b % 16 with
  | 4 => if s then some fsqrtOp else none
  | 5 => if s then some fmaOp else none
  | 8 => some (fpa1Op 8 s)
  | 9 => some (fpa1Op 9 s)
  | op => if op ≤ 7 then some (fpa2Op op s) else none

/-- The flags of FCMP (Table 8.16). -/
def fcmpRes (m : Fmt) (a b : Nat) : List Word × Nat × Bool × FlagUpd :=
  if m.isNaN a || m.isNaN b then
    ([], if m.isSNaN a || m.isSNaN b then flIV else 0, false, { z := some false, n := some false, c := some true, v := some false, t := some false })
  else
    let eq := m.key a == m.key b
    ([], 0, false, { z := some eq, n := some (decide (m.key a < m.key b)), c := some false, v := some false, t := some eq })

/-- FCMP on two stack operands. -/
def fcmpOp (s : Bool) : CoreOp :=
  let e := wWords s
  fpOp 0x10 (128 * b2n s) (if s then 4 else 3) (2 * e) 0 (fun k => [(fFmt s, k.argW s (2 * e) 0), (fFmt s, k.argW s (2 * e) e)]) fun k =>
    fcmpRes (fFmt s) (k.argW s (2 * e) 0) (k.argW s (2 * e) e)

/-- A conversion between formats, from a format of `src` to one of `dst`. -/
def cvtFFOp (low : Nat) (src dst : Bool) : CoreOp :=
  let e := wWords src
  fpOp 0x10 low 3 e (wWords dst) (fun k => [(fFmt src, k.argW src e 0)]) fun k => fRes dst (cvtFF (fFmt src) (fFmt dst) k.rnd (k.argW src e 0))

/-- A conversion from a signed integer of 32 (`w`) or 16 bits to a format. -/
def cvtIFOp (low : Nat) (w dst : Bool) : CoreOp :=
  let e := wWords w
  fpOp 0x10 low 3 e (wWords dst) (fun _ => []) fun k => fRes dst (cvtIF (fFmt dst) k.rnd (toSigned (wWidth w) (k.argW w e 0)))

/-- A conversion to a signed integer of 32 (`w`) or 16 bits, saturated (R116, R256). -/
def cvtFIOp (low : Nat) (src w : Bool) : CoreOp :=
  let e := wWords src
  fpOp 0x10 low 3 e (wWords w) (fun k => [(fFmt src, k.argW src e 0)]) fun k =>
    let lim : Int := (2 ^ (wWidth w - 1) : Nat)
    let r := cvtFI (fFmt src) k.rnd (-lim) (lim - 1) (k.argW src e 0)
    (entries (wWidth w) (ofSigned (wWidth w) r.1), r.2, false, {})

/-- The FPB group but FBAR by its operand byte. -/
def fpbOp (b : Nat) : Option CoreOp :=
  match b with
  | 0x00 => some (fcmpOp false)
  | 0x80 => some (fcmpOp true)
  | 0x02 => some (cvtFFOp 2 false true)
  | 0x03 => some (cvtFFOp 3 true false)
  | 0x04 => some (cvtIFOp 4 false true)
  | 0x05 => some (cvtFIOp 5 true false)
  | 0x06 => some (cvtIFOp 6 true true)
  | 0x07 => some (cvtFIOp 7 true true)
  | 0x08 => some (cvtIFOp 8 false false)
  | 0x09 => some (cvtFIOp 9 false false)
  | _ => none

/-- The second operand of FPI (R257). -/
def fpiB (s : Bool) (imm : Nat) : Nat := if s then imm * 65536 else imm

/-- A long form that takes its second operand from imm16; its count is one more. -/
def fpiForm (op : Nat) (s : Bool) (imm : Nat) (o : CoreOp) : CoreOp :=
  { o with long := true, low := 8 * b2n s + op, imm := imm, rep := false }

/-- FPI but FCMP: `op` is the sub code, `fop` the FPA operation. -/
def fpiOp (op fop : Nat) (s : Bool) (imm : Nat) : CoreOp :=
  let e := wWords s
  fpiForm op s imm (fpOp 0x10 0 (fCount2 fop s + 1) e e (fun k => [(fFmt s, k.argW s e 0), (fFmt s, fpiB s imm)]) fun k =>
    fRes s (fCalc2 fop (fFmt s) k.rnd (k.argW s e 0) (fpiB s imm)))

/-- FPI FCMP. -/
def fpiCmpOp (s : Bool) (imm : Nat) : CoreOp :=
  let e := wWords s
  fpiForm 3 s imm (fpOp 0x10 0 (if s then 5 else 4) e 0 (fun k => [(fFmt s, k.argW s e 0), (fFmt s, fpiB s imm)]) fun k =>
    fcmpRes (fFmt s) (k.argW s e 0) (fpiB s imm))

/-- FBAR delivers a pending trap (R271); it has no other effect. -/
def fbarOp : CoreOp :=
  ⟨false, 0x10, 0x10, 0, 4, 0, 0, [], false, .machine fun x s => if (s.core x.c).fpp then .exc (fpTrap (s.core x.c)) else .done s none⟩

/-- FADD. -/
def execFadd (c : CoreId) (cond : Cond) (s : Bool) (st : State) : Out := issueWith (fpa2Op 0 s) noAoc c cond st
/-- FSUB. -/
def execFsub (c : CoreId) (cond : Cond) (s : Bool) (st : State) : Out := issueWith (fpa2Op 1 s) noAoc c cond st
/-- FMUL. -/
def execFmul (c : CoreId) (cond : Cond) (s : Bool) (st : State) : Out := issueWith (fpa2Op 2 s) noAoc c cond st
/-- FDIV. -/
def execFdiv (c : CoreId) (cond : Cond) (s : Bool) (st : State) : Out := issueWith (fpa2Op 3 s) noAoc c cond st
/-- FMIN. -/
def execFmin (c : CoreId) (cond : Cond) (s : Bool) (st : State) : Out := issueWith (fpa2Op 6 s) noAoc c cond st
/-- FMAX. -/
def execFmax (c : CoreId) (cond : Cond) (s : Bool) (st : State) : Out := issueWith (fpa2Op 7 s) noAoc c cond st
/-- FABS. -/
def execFabs (c : CoreId) (cond : Cond) (s : Bool) (st : State) : Out := issueWith (fpa1Op 8 s) noAoc c cond st
/-- FNEG. -/
def execFneg (c : CoreId) (cond : Cond) (s : Bool) (st : State) : Out := issueWith (fpa1Op 9 s) noAoc c cond st
/-- FSQRT.s. -/
def execFsqrt (c : CoreId) (cond : Cond) (s : State) : Out := issueWith fsqrtOp noAoc c cond s
/-- FMA.s. -/
def execFma (c : CoreId) (cond : Cond) (s : State) : Out := issueWith fmaOp noAoc c cond s
/-- FCMP. -/
def execFcmp (c : CoreId) (cond : Cond) (s : Bool) (st : State) : Out := issueWith (fcmpOp s) noAoc c cond st
/-- CVT.S.H. -/
def execCvtSH (c : CoreId) (cond : Cond) (s : State) : Out := issueWith (cvtFFOp 2 false true) noAoc c cond s
/-- CVT.H.S. -/
def execCvtHS (c : CoreId) (cond : Cond) (s : State) : Out := issueWith (cvtFFOp 3 true false) noAoc c cond s
/-- CVT.S.W. -/
def execCvtSW (c : CoreId) (cond : Cond) (s : State) : Out := issueWith (cvtIFOp 4 false true) noAoc c cond s
/-- CVT.W.S. -/
def execCvtWS (c : CoreId) (cond : Cond) (s : State) : Out := issueWith (cvtFIOp 5 true false) noAoc c cond s
/-- CVT.S.I. -/
def execCvtSI (c : CoreId) (cond : Cond) (s : State) : Out := issueWith (cvtIFOp 6 true true) noAoc c cond s
/-- CVT.I.S. -/
def execCvtIS (c : CoreId) (cond : Cond) (s : State) : Out := issueWith (cvtFIOp 7 true true) noAoc c cond s
/-- CVT.H.W. -/
def execCvtHW (c : CoreId) (cond : Cond) (s : State) : Out := issueWith (cvtIFOp 8 false false) noAoc c cond s
/-- CVT.W.H. -/
def execCvtWH (c : CoreId) (cond : Cond) (s : State) : Out := issueWith (cvtFIOp 9 false false) noAoc c cond s
/-- FBAR. -/
def execFbar (c : CoreId) (cond : Cond) (s : State) : Out := issueWith fbarOp noAoc c cond s
/-- FPI FADD. -/
def execFpiAdd (c : CoreId) (cond : Cond) (s : Bool) (imm : Word) (st : State) : Out := issueWith (fpiOp 0 0 s imm.toNat) noAoc c cond st
/-- FPI FSUB. -/
def execFpiSub (c : CoreId) (cond : Cond) (s : Bool) (imm : Word) (st : State) : Out := issueWith (fpiOp 1 1 s imm.toNat) noAoc c cond st
/-- FPI FMUL. -/
def execFpiMul (c : CoreId) (cond : Cond) (s : Bool) (imm : Word) (st : State) : Out := issueWith (fpiOp 2 2 s imm.toNat) noAoc c cond st
/-- FPI FMIN. -/
def execFpiMin (c : CoreId) (cond : Cond) (s : Bool) (imm : Word) (st : State) : Out := issueWith (fpiOp 4 6 s imm.toNat) noAoc c cond st
/-- FPI FMAX. -/
def execFpiMax (c : CoreId) (cond : Cond) (s : Bool) (imm : Word) (st : State) : Out := issueWith (fpiOp 5 7 s imm.toNat) noAoc c cond st
/-- FPI FCMP. -/
def execFpiCmp (c : CoreId) (cond : Cond) (s : Bool) (imm : Word) (st : State) : Out := issueWith (fpiCmpOp s imm.toNat) noAoc c cond st

end Sys2Proof.Machine
end

