-- ==== Sys2Proof/Machine/CoreMem.lean ====
section
/-! DEFINITION. Loads and stores, address steps and addressing modes of a control core (R226, R245, R246). -/
namespace Sys2Proof.Machine
open Sys2Proof

/-- A load of `w` words from the operand of register n, P and offset (R245). -/
def loadOp (long : Bool) (major low imm count w n : Nat) (p : Bool) (off : Int) : CoreOp :=
  ⟨long, major, low, imm, count, 0, w, [], !long, .machine fun x s =>
    let m := memOperand (s.core x.c) n p off
    loadWords s x (addrsFrom m.1 w) n m.2⟩

/-- A store of `w` words. -/
def storeOp (long : Bool) (major low imm count w n : Nat) (p : Bool) (off : Int) : CoreOp :=
  ⟨long, major, low, imm, count, w, 0, List.range w, !long, .machine fun x s =>
    let m := memOperand (s.core x.c) n p off
    storeWords s x (addrsFrom m.1 w) n m.2⟩

/-- LD and ST. -/
def ldOp (n : Nat) (p : Bool) (o : Nat) : CoreOp := loadOp false 8 (n * 32 + 16 * b2n p + o) 0 2 1 n p (toSigned 4 o)
def stOp (n : Nat) (p : Bool) (o : Nat) : CoreOp := storeOp false 9 (n * 32 + 16 * b2n p + o) 0 2 1 n p (toSigned 4 o)
/-- LDD and STD. -/
def lddOp (n : Nat) (p : Bool) (o : Nat) : CoreOp := loadOp false 10 (n * 16 + 8 * b2n p + o) 0 3 2 n p (toSigned 3 o)
def stdOp (n : Nat) (p : Bool) (o : Nat) : CoreOp := storeOp false 10 (128 + n * 16 + 8 * b2n p + o) 0 3 2 n p (toSigned 3 o)
/-- ARG loads and stores, at A7 + k. -/
def argLoadOp (k : Nat) : CoreOp := loadOp false 11 k 0 2 1 7 false k
def argStoreOp (k : Nat) : CoreOp := storeOp false 11 (128 + k) 0 2 1 7 false k
/-- LDX, STX, LDDX, STDX. -/
def ldxOp (n : Nat) (p : Bool) (imm : Nat) : CoreOp := loadOp true 2 (8 * b2n p + n) imm 3 1 n p (toSigned 16 imm)
def stxOp (n : Nat) (p : Bool) (imm : Nat) : CoreOp := storeOp true 3 (8 * b2n p + n) imm 3 1 n p (toSigned 16 imm)
def lddxOp (n : Nat) (p : Bool) (imm : Nat) : CoreOp := loadOp true 4 (8 * b2n p + n) imm 4 2 n p (toSigned 16 imm)
def stdxOp (n : Nat) (p : Bool) (imm : Nat) : CoreOp := storeOp true 5 (8 * b2n p + n) imm 4 2 n p (toSigned 16 imm)

/-- ADDA: An stepped by sext(imm16); an address fault where MLEN = 0 (R207). -/
def addaOp (n imm : Nat) : CoreOp :=
  ⟨true, 0x13, n, imm, 2, 0, 0, [], false, .machine fun x s =>
    let k := s.core x.c
    match k.stepped n (toSigned 16 imm) with
    | some a => .done (s.updCore x.c fun k => k.setAddr n a) none
    | none => .exc ⟨0x03, 0, some (k.addr n)⟩⟩

/-- Whether a MODE and BRW may be held (R207). -/
def modeOk (v : Nat) : Bool := v % 4 != 3 && (v % 4 != 2 || (1 ≤ bitsN v 6 2 && bitsN v 6 2 ≤ 24))

/-- SETAM's decode fault: a reserved bit, or a mode not valid for its register (R207, R245). -/
def setamDecodes (n imm : Nat) : Decodes :=
  { fault := fun _ _ => if bitsN imm 15 7 ≠ 0 ∨ !modeOk imm ∨ (n ≥ 4 ∧ imm % 4 ≠ 0) then some 0x01 else none, imm := true }

/-- AMODEn set (Table 7.11). -/
def Core.setMode (k : Core) (n v : Nat) : Core :=
  { k with am := k.am.modify n fun m => { m with mode := BitVec.ofNat 2 v, brw := BitVec.ofNat 5 (bitsN v 6 2) } }

/-- SETAM: AMODEn := imm16[6:0]. -/
def setamOp (n imm : Nat) : CoreOp :=
  { coreOp 0x14 n 2 0 0 (fun k => .ok (k.setMode n imm)) with long := true, imm := imm, rep := false }

/-- LD. -/
def execLd (c : CoreId) (cond : Cond) (n : Fin 8) (p : Bool) (off : BitVec 4) (s : State) : Out := issue (ldOp n.val p off.toNat) c cond s
/-- ST. -/
def execSt (c : CoreId) (cond : Cond) (n : Fin 8) (p : Bool) (off : BitVec 4) (s : State) : Out := issue (stOp n.val p off.toNat) c cond s
/-- LDD. -/
def execLdd (c : CoreId) (cond : Cond) (n : Fin 8) (p : Bool) (off : BitVec 3) (s : State) : Out := issue (lddOp n.val p off.toNat) c cond s
/-- STD. -/
def execStd (c : CoreId) (cond : Cond) (n : Fin 8) (p : Bool) (off : BitVec 3) (s : State) : Out := issue (stdOp n.val p off.toNat) c cond s
/-- ARG load at A7 + k. -/
def execArgLoad (c : CoreId) (cond : Cond) (k : BitVec 7) (s : State) : Out := issue (argLoadOp k.toNat) c cond s
/-- ARG store at A7 + k. -/
def execArgStore (c : CoreId) (cond : Cond) (k : BitVec 7) (s : State) : Out := issue (argStoreOp k.toNat) c cond s
/-- LDX. -/
def execLdx (c : CoreId) (cond : Cond) (n : Fin 8) (p : Bool) (off : Word) (s : State) : Out := issue (ldxOp n.val p off.toNat) c cond s
/-- STX. -/
def execStx (c : CoreId) (cond : Cond) (n : Fin 8) (p : Bool) (off : Word) (s : State) : Out := issue (stxOp n.val p off.toNat) c cond s
/-- LDDX. -/
def execLddx (c : CoreId) (cond : Cond) (n : Fin 8) (p : Bool) (off : Word) (s : State) : Out := issue (lddxOp n.val p off.toNat) c cond s
/-- STDX. -/
def execStdx (c : CoreId) (cond : Cond) (n : Fin 8) (p : Bool) (off : Word) (s : State) : Out := issue (stdxOp n.val p off.toNat) c cond s
/-- ADDA. -/
def execAdda (c : CoreId) (cond : Cond) (n : Fin 8) (imm : Word) (s : State) : Out := issue (addaOp n.val imm.toNat) c cond s
/-- SETAM. -/
def execSetam (c : CoreId) (cond : Cond) (n : Fin 8) (imm : Word) (s : State) : Out := issueWith (setamOp n.val imm.toNat) (setamDecodes n.val imm.toNat) c cond s

end Sys2Proof.Machine
end

