-- ==== Sys2Proof/Machine/CoreMicro.lean ====
section
/-! DEFINITION. Short forms as words, the repeat instructions (R248 to R250), customer microcode: decode entries, steps, their checks and their run (R278 to R282). -/
namespace Sys2Proof.Machine
open Sys2Proof

/-- The short form of a major code and operand byte, among those that may be repeated or be a step (R249, Table 9.15); none for others and for reserved encodings. -/
def shortOp (major b : Nat) : Option CoreOp :=
  match major with
  | 0x00 => stkOp b
  | 0x01 => aluOp b
  | 0x02 => some (shfOp (b / 32) (b % 32))
  | 0x03 => mdOp b
  | 0x04 => decOp b
  | 0x05 => bitOp b
  | 0x06 => some (pshOp b)
  | 0x07 => some (ldhOp b)
  | 0x08 => some (ldOp (b / 32) (bitN b 4) (b % 16))
  | 0x09 => some (stOp (b / 32) (bitN b 4) (b % 16))
  | 0x0A => some (if bitN b 7 then stdOp (bitsN b 6 4) (bitN b 3) (b % 8) else lddOp (bitsN b 6 4) (bitN b 3) (b % 8))
  | 0x0B => some (if bitN b 7 then argStoreOp (b % 128) else argLoadOp (b % 128))
  | 0x0F => fpaOp b
  | 0x10 => fpbOp b
  | _ => none

/-- The short form that a word spells, with its condition. -/
def shortWord (w : Nat) : Option (CoreOp × Cond) :=
  if bitN w 15 then none else (shortOp (bitsN w 12 8) (w % 256)).map fun o => (o, condOfC2 (bitsN w 14 13))

/-- Whether a short form uses floating point, which the AOC lacks. -/
def isFp (o : CoreOp) : Bool := o.major == 0x0F || o.major == 0x10

/-! Decode entries (Table 9.13) and steps (Table 9.14) -/

def deValid (w0 : Nat) : Bool := bitN w0 15
def deRepok (w0 : Nat) : Bool := bitN w0 14
def deAbnd (w0 : Nat) : Bool := bitN w0 13
def deRingmax (w0 : Nat) : Nat := bitsN w0 12 11
def dePop (w0 : Nat) : Nat := bitsN w0 10 8
def dePush (w0 : Nat) : Nat := bitsN w0 7 5
def deCycles (w1 : Nat) : Nat := bitsN w1 15 10
def deStart (w1 : Nat) : Nat := w1 % 512

/-- The control word and the instruction word of step i of a microcode store. -/
def stepCtl (ms : WMap) (i : Nat) : Nat := (wmapGet ms (2 * i) 0).toNat
def stepInstr (ms : WMap) (i : Nat) : Nat := (wmapGet ms (2 * i + 1) 0).toNat
def stepLast (ms : WMap) (i : Nat) : Bool := bitN (stepCtl ms i) 13
def stepSubst (ms : WMap) (i : Nat) : Nat := bitsN (stepCtl ms i) 15 14

/-- The number of steps of the microprogram at a start index: a LAST step within 32 steps and at or before step 511. -/
def microLen (ms : WMap) (start : Nat) : Option Nat :=
  ((List.range 32).find? fun i => decide (start + i ≤ 511) && stepLast ms (start + i)).map (· + 1)

/-- Whether a short form stores to memory. -/
def isStore (o : CoreOp) : Bool := o.major == 9 || (o.major == 10 && 128 ≤ o.low) || (o.major == 11 && 128 ≤ o.low)

/-- Whether a short form is DIV, DIVS, REM, FDIV or FSQRT. -/
def isAbandonable (o : CoreOp) : Bool := (o.major == 3 && 8 ≤ o.low) || (o.major == 0x0F && (o.low % 16 == 3 || o.low % 16 == 4))

/-- The stack heights of a microprogram (rule 0x05): entries present above those beneath, step by step; none where a step breaks the rule. -/
def heights : List (CoreOp × Cond) → Nat → Option Nat
  | [], h => some h
  | (o, cond) :: r, h =>
    if h < o.need ∨ 8 < h - o.need + o.leave ∨ (cond ≠ .al ∧ o.need ≠ o.leave) then none else heights r (h - o.need + o.leave)

/-- The code of the first rule of Table 9.15 that a decode entry breaks; 0 where it is accepted (DEDUCED, log entry 18). -/
def microCheck (ms : WMap) (k w0 w1 : Nat) : Nat :=
  let start := deStart w1
  match microLen ms start with
  | none => 0x01
  | some n =>
    let idx := (List.range n).map (start + ·)
    let ops := idx.map fun i => shortWord (stepInstr ms i)
    if ops.any Option.isNone then 0x02 else
    let os := ops.filterMap id
    if (os.filter fun o => isStore o.1).length > 4 then 0x02
    else if deCycles w1 ≠ 1 + (os.map (·.1.count)).sum then 0x03
    else if (os.any (fun o => isAbandonable o.1) && !deAbnd w0) || (!deAbnd w0 && decide (24 < deCycles w1)) then 0x04
    else if heights os (dePop w0) ≠ some (dePush w0) then 0x05
    else if idx.any (fun i => (stepSubst ms i == 1 && decide (8 ≤ k)) || (decide (2 ≤ stepSubst ms i) && decide (k < 8))) || (deRepok w0 && decide (8 ≤ k)) then 0x06
    else if w0 % 32 ≠ 0 ∨ bitN w1 9 ∨ idx.any (fun i => stepCtl ms i % 8192 != 0) then 0x07
    else 0

/-- The decode page is about to change: words in the window keep the page they were read with (R282). -/
def Core.keepPage (k : Core) : Core :=
  { k with winDe := k.winDe.map fun e => match e with | none => some (k.de, k.msteps) | some x => some x }

/-- A decode entry takes both words (R278, R280, R282): with VALID = 1 it is checked; an entry that fails is left with VALID = 0, MCSTAT.CODE records the reason and EV-0x3020 is logged. -/
def writeEntry (s : State) (c k w0 w1 : Nat) : State :=
  let x := s.core c
  if !deValid w0 then s.updCore c fun y => { y.keepPage with de := y.de.set k (wd w0, wd w1) } else
  let code := microCheck x.msteps k w0 w1
  let w0' := if code = 0 then w0 else w0 % 32768
  let s := s.updCore c fun y => { y.keepPage with de := y.de.set k (wd w0', wd w1), mccode := BitVec.ofNat 8 code }
  if code = 0 then s else logEv s 0x3020 .note (coreBlock c) (roleNo s c) [roleNo s c, k, code]

/-- Whether a step lies in the microprogram of an entry with VALID = 1 (R282). -/
def inValidProgram (k : Core) (i : Nat) : Bool :=
  k.de.any fun e => deValid e.1.toNat && decide (deStart e.2.toNat ≤ i) && decide (i < deStart e.2.toNat + (microLen k.msteps (deStart e.2.toNat)).getD 0)

/-- A write of MCDHI: the whole step at MCADDR is written and MCADDR goes on, unless the step lies in a valid microprogram (R282). -/
def writeStep (s : State) (c : Nat) (v : Word) : State :=
  let k := s.core c
  let i := k.mcaddr.toNat
  if inValidProgram k i then s.updCore c fun y => { y with mchi := v, mccode := 0x08 }
  else s.updCore c fun y =>
    { y.keepPage with mchi := v, mcaddr := y.mcaddr + 1, msteps := wmapSet (wmapSet y.msteps (2 * i) y.mclo 0) (2 * i + 1) v 0 }

/-- MTC to word w1 of a decode entry: w0 held or in effect, w1 given (R8, R280). -/
def writeEntryW1 (s : State) (c k : Nat) (w1 : Word) : State :=
  let x := s.core c
  let w0 := (assocGet x.ctlHeld (0xC0 + 2 * k)).getD (x.de.getD k (0, 0)).1
  let s := s.updCore c fun y => { y with ctlHeld := y.ctlHeld.filter fun e => e.1 != 0xC0 + 2 * k }
  writeEntry s c k w0.toNat w1.toNat

/-- A running core's ring 0 code may write its decode page; the AOC has none. -/
def mayWritePage (s : State) (c : Nat) : Bool := (s.core c).running && !(s.core c).halted && (s.core c).ring == 0 && c != 17

/-- An MTC to word w1 of decode entry k (R280) (DEDUCED, log entry 18). -/
def execDecodeEntryWrite (c : CoreId) (k : Fin 16) (w1 : Word) (s : State) : Out :=
  ok (if mayWritePage s c.val then writeEntryW1 s c.val k.val w1 else s)

/-- An MTC to MCDHI (R282). -/
def execMicrocodeStepWrite (c : CoreId) (v : Word) (s : State) : Out :=
  ok (if mayWritePage s c.val then writeStep s c.val v else s)

/-! Customer instructions -/

/-- An operand byte after SUBST (Table 9.14). -/
def substByte (sub b byte imm : Nat) : Nat :=
  match sub with
  | 1 => byte
  | 2 => imm % 256
  | 3 => imm / 256
  | _ => b

/-- The steps of a microprogram from step i on (R281): each condition is evaluated afresh, each step sees the effects of those before it. -/
def runMicro (x : Ctx) (ms : WMap) (k start byte imm : Nat) : Nat → Nat → State → Res
  | 0, _, s => .done s none
  | fuel + 1, i, s =>
    let a := start + i
    let w := stepInstr ms a
    let go (s : State) : Res := if stepLast ms a then .done s none else runMicro x ms k start byte imm fuel (i + 1) s
    if !condHolds (s.core x.c) (condOfC2 (bitsN w 14 13)) then go s else
    match shortOp (bitsN w 12 8) (substByte (stepSubst ms a) (w % 256) byte imm) with
    | none => .exc ⟨0x01, x.word, some 0⟩
    | some o => match runOp o { x with micro := some (k * 32 + i) } s with
      | .done s' _ => go s'
      | r => r

/-- The run of Uk (R281): POP and PUSH against DEPTH first; its steps work above the stack's 32 entries where they need to, and nothing is architectural until the last step completes. An overflow or underflow of a step, or of a stack that SUBST has made end above 32 entries, reports DEPTH as it stands at Uk (R202). -/
def runCustomer (page : List (Word × Word) × WMap) (k byte imm : Nat) (x : Ctx) (s : State) : Res :=
  let e := page.1.getD k (0, 0)
  let w0 := e.1.toNat
  let d := (s.core x.c).depth
  if d < dePop w0 then .exc ⟨0x06, d, some 0⟩
  else if 32 < d - dePop w0 + dePush w0 then .exc ⟨0x05, d, some 0⟩
  else
    match runMicro x page.2 k (deStart e.2.toNat) byte imm 32 0 (s.updCore x.c fun y => { y with stack := y.stack ++ List.replicate 8 0 }) with
    | .done s' _ => if 32 < (s'.core x.c).depth then .exc ⟨0x05, d, some 0⟩ else .done (s'.updCore x.c fun y => { y with stack := y.stack.take 32 }) none
    | .exc e => .exc (if e.cause = 0x05 ∨ e.cause = 0x06 then { e with info := d } else e)
    | r => r

/-- A customer instruction as it decodes at the PC (R278, R281). For U0 to U7 the operand byte is the low byte of `imm`. -/
def customerOp (k0 : Core) (k imm : Nat) : CoreOp :=
  let page := winPage k0 0
  let e := page.1.getD k (0, 0)
  ⟨decide (8 ≤ k), if k < 8 then 0x18 + k else 0x70 + (k - 8), if k < 8 then imm % 256 else 0, imm, deCycles e.2.toNat, 0, 0, [], deRepok e.1.toNat && decide (k < 8),
    .machine (runCustomer page k (imm % 256) imm)⟩

/-- The decode faults of a customer instruction: no valid entry, or a ring above RINGMAX (R213, R278). -/
def customerDecodes (k : Nat) : Decodes :=
  { fault := fun s c =>
      let w0 := ((winPage (s.core c) 0).1.getD k (0, 0)).1.toNat
      if c = 17 ∨ !deValid w0 then some 0x01 else if (s.core c).ring > deRingmax w0 then some 0x02 else none }

/-- A customer instruction U0 to U15 (R281) (DEDUCED, log entry 18). -/
def execCustomerInstruction (c : CoreId) (cond : Cond) (k : Fin 16) (imm : Word) (s : State) : Out :=
  issueWith (customerOp (s.core c.val) k.val imm.toNat) (customerDecodes k.val) c cond s

/-! Repeat -/

/-- Whether a word may be the repeated instruction on a core, and its count (R249). -/
def repeatable (s : State) (c i : Nat) : Option Nat :=
  let w := winWord s c i
  let page := winPage (s.core c) i
  let maj := bitsN w 12 8
  if bitN w 15 then none
  else if 0x18 ≤ maj then
    let e := page.1.getD (maj - 0x18) (0, 0)
    if c ≠ 17 ∧ deValid e.1.toNat ∧ deRepok e.1.toNat then some (deCycles e.2.toNat) else none
  else match shortWord w with
    | some (o, _) => if c = 17 ∧ isFp o then none else some o.count
    | none => none

/-- REP and REPL (R248): RC := c. With c = 0 the repeated instruction is skipped once, with no check that it can be fetched or executed (R212, R263) (DESIGN CHOICE, log entry 5); else REPA := 1 and the repetitions issue one by one at the address after the REP. -/
def repOp (long : Bool) (low imm cnt : Nat) : CoreOp :=
  let need := if cnt = 0 then 1 else 0
  ⟨long, if long then 0x08 else 0x0E, low, imm, 1, need, 0, List.range need, false, .machine fun x s =>
    let k := s.core x.c
    let n := if cnt = 0 then k.arg 1 0 else cnt
    let s' := s.updCore x.c fun k => { k.replace need [] with rc := wd n }
    if n = 0 then .done (winAdvance (addCycles s' x.c ((repeatable s x.c x.len).getD 0)) x.c 1) none
    else .done (s'.updCore x.c fun k => k.setSt 9 9 1) none⟩

/-- The decode fault of a REP whose repeated word is not repeatable (R249). -/
def repDecodes (len : Nat) : Decodes :=
  { fault := fun s c => if (repeatable s c len).isNone then some 0x01 else none, imm := len == 2 }

/-- REP: the count from its operand byte. -/
def execRep (c : CoreId) (cond : Cond) (n : Byte) (s : State) : Out := issueWith (repOp false n.toNat 0 n.toNat) (repDecodes 1) c cond s
/-- REPL: the count from imm16. -/
def execRepl (c : CoreId) (cond : Cond) (imm : Word) (s : State) : Out := issueWith (repOp true 0 imm.toNat imm.toNat) (repDecodes 2) c cond s

end Sys2Proof.Machine
end

