-- ==== Sys2Proof/Machine/CoreCtl.lean ====
section
/-! DEFINITION. Control registers (R203, R207, R208, R227, R228, R264, R277, R282, R352): their values, their reads and writes by R8, MTC and MFC, timers. -/
namespace Sys2Proof.Machine
open Sys2Proof

/-- The first number and the words of the control register that a number lies in (Tables 7.11, 7.12, 9.3, 9.12, 9.13). -/
def ctlSpan (c n : Nat) : Nat × Nat :=
  if n = 0x08 ∨ n = 0x09 then (0x08, 2)
  else if n = 0x0A ∨ n = 0x0B then (0x0A, 2)
  else if 0x10 ≤ n ∧ n < 0x30 then
    let b := n / 8 * 8
    if 1 ≤ n % 8 ∧ n % 8 ≤ 3 then (b + 1, 3) else if 4 ≤ n % 8 ∧ n % 8 ≤ 5 then (b + 4, 2) else (n, 1)
  else if 0x45 ≤ n ∧ n ≤ 0x4D then (0x45 + (n - 0x45) / 3 * 3, 3)
  else if 0x80 ≤ n ∧ n < 0xC0 then
    let b := n / 8 * 8
    if n % 8 ≤ 2 then (b, 3) else if n % 8 ≤ 5 then (b + 3, 3) else (n, 1)
  else if 0xC0 ≤ n ∧ n < 0xE0 then (n / 2 * 2, 2)
  else if c = 17 then
    (if 0x100 ≤ n ∧ n ≤ 0x103 then (0x100, 4) else if n = 0x108 ∨ n = 0x109 then (0x108, 2) else if n = 0x110 ∨ n = 0x111 then (0x110, 2) else (n, 1))
  else if 0x100 ≤ n ∧ n ≤ 0x10B then (n / 4 * 4, 4)
  else if 0x110 ≤ n ∧ n ≤ 0x113 then (0x110, 4)
  else (n, 1)

/-- Word i of a wide value. -/
def wordOf (v i : Nat) : Word := wd (v >>> (16 * i))

/-- The value in effect of a control register, by its number; a reserved number reads 0 (R227). -/
def ctlWord (s : State) (c n : Nat) : Word :=
  let k := s.core c
  let (b, _) := ctlSpan c n
  let i := n - b
  let m (j : Nat) : AddrMode := k.am.getD j ⟨0, 0, 0, 0⟩
  if n = 0 then k.st
  else if n = 1 then k.fps
  else if n = 2 then k.lc
  else if n = 3 then k.rc
  else if n = 4 then wd k.depth
  else if b = 0x08 then wordOf k.crcp.toNat i
  else if b = 0x0A then wordOf k.crcs.toNat i
  else if 0x10 ≤ n ∧ n < 0x30 then
    let x := m ((n - 0x10) / 8)
    match b % 8 with
    | 0 => wd (x.brw.toNat * 4 + x.mode.toNat)
    | 1 => wordOf x.mbase.toNat i
    | 4 => wordOf x.mlen.toNat i
    | _ => 0
  else if n = 0x40 then k.evbase
  else if n = 0x41 then wd (32768 * b2n k.df + k.edepth.toNat)
  else if n = 0x42 then k.imask
  else if n = 0x43 then wd (ipend s c)
  else if 0x45 ≤ n ∧ n ≤ 0x4D then wordOf (k.ssp.getD ((n - 0x45) / 3) 0).toNat i
  else if n = 0x4E then k.gbase
  else if n = 0x4F then wd k.gcount.toNat
  else if 0x80 ≤ n ∧ n < 0xC0 then
    let w := k.cw.getD ((n - 0x80) / 8) ⟨0, 0, 0⟩
    if n % 8 ≤ 2 then wordOf w.base.toNat i else if n % 8 ≤ 5 then wordOf w.limit.toNat i else if n % 8 = 6 then wd w.rights.toNat else 0
  else if 0xC0 ≤ n ∧ n < 0xE0 then let e := k.de.getD ((n - 0xC0) / 2) (0, 0); if n % 2 = 0 then e.1 else e.2
  else if n = 0xE0 then wd k.mcaddr.toNat
  else if n = 0xE1 then k.mclo
  else if n = 0xE2 then k.mchi
  else if n = 0xE3 then wd k.mccode.toNat
  else if c = 17 then
    (if b = 0x100 ∧ n ≤ 0x103 then wordOf s.aon.tick.toNat i
     else if b = 0x108 ∧ n ≤ 0x109 then s.regW (Reg.AON_WT + i)
     else if b = 0x110 ∧ n ≤ 0x111 then s.regW (Reg.AON_WT + 2 + i) else 0)
  else if 0x100 ≤ n ∧ n ≤ 0x103 then wordOf k.cycle.toNat i
  else if 0x104 ≤ n ∧ n ≤ 0x107 then wordOf s.time.toNat i
  else if 0x108 ≤ n ∧ n ≤ 0x10B then wordOf (k.tcmp.getD 0 0).toNat i
  else if n = 0x10C then wd (k.tctl.getD 0 0).toNat
  else if 0x110 ≤ n ∧ n ≤ 0x113 then wordOf (k.tcmp.getD 1 0).toNat i
  else if n = 0x114 then wd (k.tctl.getD 1 0).toNat
  else 0

/-- What a higher word of a control register captures before its lowest word is first read: its reset value (R8); TIME's is the device time base itself (Table 7.12). -/
def ctlReset (s : State) (c n : Nat) : Word :=
  if n = 0x09 then 0x04C1 else if n = 0x0B then 0xFFFF
  else if 0x104 ≤ n ∧ n ≤ 0x107 ∧ c ≠ 17 then ctlWord s c n
  else if n = 0x46 then wordOf ((localBase s c + 0xFFF0) % 2 ^ 36) 1 else if n = 0x47 then wordOf ((localBase s c + 0xFFF0) % 2 ^ 36) 2 else 0

/-- MFC's read of a word (R8): the lowest word captures the whole value, higher words return what was captured. -/
def ctlRead (s : State) (c n : Nat) : Word × State :=
  let (b, len) := ctlSpan c n
  if len = 1 then (ctlWord s c n, s)
  else if n = b then
    (ctlWord s c n, (List.range len).foldl (fun t i => t.updCore c fun k => { k with ctlCap := assocPut k.ctlCap (b + i) (ctlWord s c (b + i)) }) s)
  else ((assocGet (s.core c).ctlCap n).getD (ctlReset s c n), s)

/-- A core window changed. -/
def Core.setWin (k : Core) (n : Nat) (f : CoreWin → CoreWin) : Core := { k with cw := k.cw.modify n f }

/-- A control register of one or more words takes a value as a whole; numbers that are read-only or reserved take nothing. -/
def ctlTake (s : State) (c b v : Nat) : State :=
  let k := s.core c
  let up (f : Core → Core) : State := s.updCore c f
  if b = 0 then
    (if k.ring ≤ 1 then up fun k => { k with st := wd (setBitsN (setBitsN (setBitsN k.st.toNat 11 11 (v / 2048)) 8 8 (v / 256)) 5 0 v) }
     else up fun k => { k with st := wd (setBitsN k.st.toNat 5 0 v) })
  else if b = 1 then up fun k => { k with fps := wd (v % 4096) }
  else if b = 2 then up fun k => { k with lc := wd v }
  else if b = 3 then up fun k => { k with rc := wd v }
  else if b = 0x08 then up fun k => { k with crcp := BitVec.ofNat 32 v }
  else if b = 0x0A then up fun k => { k with crcs := BitVec.ofNat 32 v }
  else if 0x10 ≤ b ∧ b < 0x30 then
    let j := (b - 0x10) / 8
    match b % 8 with
    | 0 => up fun k => k.setMode j v
    | 1 => up fun k => { k with am := k.am.modify j fun m => { m with mbase := BitVec.ofNat 36 v } }
    | 4 => up fun k => { k with am := k.am.modify j fun m => { m with mlen := BitVec.ofNat 20 v } }
    | _ => s
  else if b = 0x40 then up fun k => { k with evbase := wd v }
  else if b = 0x41 then (if bitN v 15 then s else up fun k => { k with df := false })
  else if b = 0x42 then up fun k => { k with imask := wd (v / 2 * 2) }
  else if 0x45 ≤ b ∧ b ≤ 0x4D then up fun k => { k with ssp := k.ssp.set ((b - 0x45) / 3) (BitVec.ofNat 36 v) }
  else if b = 0x4E then up fun k => { k with gbase := wd v }
  else if b = 0x4F then up fun k => { k with gcount := BitVec.ofNat 9 (min 256 (v % 512)) }
  else if 0x80 ≤ b ∧ b < 0xC0 then
    let j := (b - 0x80) / 8
    match b % 8 with
    | 0 => up fun k => k.setWin j fun w => { w with base := BitVec.ofNat 36 v }
    | 3 => up fun k => k.setWin j fun w => { w with limit := BitVec.ofNat 36 v }
    | 6 => up fun k => k.setWin j fun w => { w with rights := BitVec.ofNat 9 v }
    | _ => s
  else if 0xC0 ≤ b ∧ b < 0xE0 then writeEntry s c ((b - 0xC0) / 2) (v % 65536) (v / 65536)
  else if b = 0xE0 then up fun k => { k with mcaddr := BitVec.ofNat 9 v }
  else if b = 0xE1 then up fun k => { k with mclo := wd v }
  else if b = 0xE2 then writeStep s c (wd v)
  else if c = 17 then (if b = 0x108 then s.regSet Reg.AON_WT v 2 else if b = 0x110 then s.regSet (Reg.AON_WT + 2) v 2 else s)
  else if b = 0x108 then up fun k => { k with tcmp := k.tcmp.set 0 (BitVec.ofNat 64 v) }
  else if b = 0x110 then up fun k => { k with tcmp := k.tcmp.set 1 (BitVec.ofNat 64 v) }
  else if b = 0x10C then up fun k => { k with tctl := k.tctl.modify 0 fun t => timerCtl t v }
  else if b = 0x114 then up fun k => { k with tctl := k.tctl.modify 1 fun t => timerCtl t v }
  else s
where
  /-- TCTLn written: EN is set, and a 1 clears PEND. -/
  timerCtl (t : BitVec 2) (v : Nat) : BitVec 2 := BitVec.ofNat 2 (v % 2 + (if bitN v 1 then 0 else 2 * b2n (t.getLsbD 1)))

/-- MTC's write of a word (R8): lower words are held; the highest word makes the register take its value, a lower word not written since taking the value in effect. -/
def ctlWrite (s : State) (c n : Nat) (v : Word) : State :=
  let (b, len) := ctlSpan c n
  if len = 1 then ctlTake s c b v.toNat
  else if n < b + len - 1 then s.updCore c fun k => { k with ctlHeld := assocPut k.ctlHeld n v }
  else
    let k := s.core c
    let ws := (List.range (len - 1)).map fun i => (assocGet k.ctlHeld (b + i)).getD (ctlWord s c (b + i))
    ctlTake (s.updCore c fun k => { k with ctlHeld := k.ctlHeld.filter fun e => e.1 < b || b + len ≤ e.1 }) c b (natOfWords (ws ++ [v]))

/-- The decode faults of MTC and MFC (R213, R227, Table 7.13, Table 9.1). -/
def ctlDecodes (write : Bool) (n : Nat) : Decodes :=
  { fault := fun s c =>
      let r := (s.core c).ring
      if 0x13F < n then some 0x01
      else if c = 17 ∧ 0x80 ≤ n ∧ n < 0x100 then some 0x01
      else if 0x40 ≤ n ∧ n < 0x100 ∧ r ≠ 0 then some 0x02
      else if write ∧ 0x100 ≤ n ∧ 2 ≤ r then some 0x02
      else none,
    imm := true }

/-- MTC (R203, R207, R208, R227). A lower DEPTH does not wait for far loads under way above it: their data still land where they were to (DESIGN CHOICE, log entry 55). -/
def mtcOp (n : Nat) : CoreOp :=
  ⟨true, 0x0D, 0, n, 2, 1, 0, [0], false, .machine fun x s =>
    let k := s.core x.c
    let v := k.arg 1 0
    if n = 4 then (if v > 32 then .exc ⟨0x05, k.depth, some 0⟩ else .done (s.updCore x.c fun k => { k with depth := v }) none)
    else if 0x10 ≤ n ∧ n < 0x30 ∧ n % 8 = 0 ∧ !modeOk v then .exc ⟨0x01, x.word, some 0⟩
    else .done (ctlWrite (s.updCore x.c fun k => k.replace 1 []) x.c n (wd v)) none⟩

/-- MFC. -/
def mfcOp (n : Nat) : CoreOp :=
  ⟨true, 0x0E, 0, n, 2, 0, 1, [], false, .machine fun x s =>
    let r := ctlRead s x.c n
    .done (r.2.updCore x.c fun k => k.replace 0 [r.1]) none⟩

/-- MTC: ( x -- ), control register imm16 := x. -/
def execMtc (c : CoreId) (cond : Cond) (imm : Word) (s : State) : Out := issueWith (mtcOp imm.toNat) (ctlDecodes true imm.toNat) c cond s
/-- MFC: ( -- x ). -/
def execMfc (c : CoreId) (cond : Cond) (imm : Word) (s : State) : Out := issueWith (mfcOp imm.toNat) (ctlDecodes false imm.toNat) c cond s

/-- A timer's compare value is reached: PEND sets, and its interrupt is pending until PEND clears (R228). -/
def execTimerCompareMatch (c : CoreId) (n : Fin 2) (s : State) : Out :=
  let k := s.core c.val
  ok (if c ≠ 17 ∧ (k.tctl.getD n.val 0).getLsbD 0 ∧ (k.tcmp.getD n.val 0).toNat ≤ s.time.toNat then
    s.updCore c.val fun k => { k with tctl := k.tctl.modify n.val fun t => t ||| 2 } else s)

end Sys2Proof.Machine
end

