-- ==== Sys2Proof/Machine/CoreFlow.lean ====
section
/-! DEFINITION. Branches, loops and jumps (R247), calls and returns (R251 to R253, R266, R273), system instructions (R254, R255), decode faults (R261), interrupts (R269) and the release of a core (R198, R199). -/
namespace Sys2Proof.Machine
open Sys2Proof

/-! Branches (Table 8.11) -/

/-- An instruction that only goes somewhere; `f` gives the core and the target, none for the next instruction. -/
def flowOp (long : Bool) (major low imm count : Nat) (f : Ctx → State → State × Option Nat) : CoreOp :=
  ⟨long, major, low, imm, count, 0, 0, [], false, .machine fun x s => let r := f x s; .done r.1 r.2⟩

/-- The target of a relative branch: the address after the instruction plus an offset. -/
def relTarget (x : Ctx) (off : Int) : Nat := addrAdd ((x.p + x.len) % 2 ^ 36) off

def brOp (b : Nat) : CoreOp := flowOp false 0x0C b 0 2 fun x s => (s, some (relTarget x (toSigned 8 b)))
def brlOp (imm : Nat) : CoreOp := flowOp true 0x06 0 imm 2 fun x s => (s, some (relTarget x (toSigned 16 imm)))
def jmpaOp (imm : Nat) : CoreOp := flowOp true 0x0B 0 imm 2 fun x s => (s, some ((localBase s x.c + imm) % 2 ^ 36))
/-- DBNZ and DBNZL: LC := LC − 1 modulo 2^16; the branch is taken where LC ≠ 0. -/
def dbnzOp (long : Bool) (low imm : Nat) (off : Int) : CoreOp :=
  flowOp long (if long then 0x07 else 0x0D) low imm 2 fun x s =>
    let lc := (s.core x.c).lc - 1
    (s.updCore x.c fun k => { k with lc := lc }, if lc = 0 then none else some (relTarget x off))

/-- BR. -/
def execBr (c : CoreId) (cond : Cond) (off : Byte) (s : State) : Out := issue (brOp off.toNat) c cond s
/-- DBNZ. -/
def execDbnz (c : CoreId) (cond : Cond) (off : Byte) (s : State) : Out := issue (dbnzOp false off.toNat 0 (toSigned 8 off.toNat)) c cond s
/-- BRL. -/
def execBrl (c : CoreId) (cond : Cond) (imm : Word) (s : State) : Out := issue (brlOp imm.toNat) c cond s
/-- DBNZL. -/
def execDbnzl (c : CoreId) (cond : Cond) (imm : Word) (s : State) : Out := issue (dbnzOp true 0 imm.toNat (toSigned 16 imm.toNat)) c cond s
/-- JMPA. -/
def execJmpa (c : CoreId) (cond : Cond) (imm : Word) (s : State) : Out := issue (jmpaOp imm.toNat) c cond s

/-! Calls (Table 8.13) -/

/-- The 1 bits of a save mask. -/
def maskCount (m : Nat) : Nat := popCount 4 m

/-- The words of the pairs that a save mask names, the lowest mask bit first; of LC and A6, LC first (R251) (DESIGN CHOICE, log entry 55). -/
def savedWords (k : Core) (m : Nat) : List Word :=
  (if bitN m 0 then addrEntries (k.addr 0) ++ addrEntries (k.addr 1) else []) ++
  (if bitN m 1 then addrEntries (k.addr 2) ++ addrEntries (k.addr 3) else []) ++
  (if bitN m 2 then addrEntries (k.addr 4) ++ addrEntries (k.addr 5) else []) ++
  (if bitN m 3 then [k.lc, 0, 0] ++ addrEntries (k.addr 6) else [])

/-- The registers restored from the words of a frame after its first two. -/
def restoreSaved (k : Core) (m : Nat) (ws : List Word) : Core :=
  let at_ (b : Nat) : Nat := 6 * popCount b m
  let rd (i : Nat) : Nat := addrAt ws i
  let k := if bitN m 0 then (k.setAddr 0 (rd (at_ 0))).setAddr 1 (rd (at_ 0 + 3)) else k
  let k := if bitN m 1 then (k.setAddr 2 (rd (at_ 1))).setAddr 3 (rd (at_ 1 + 3)) else k
  let k := if bitN m 2 then (k.setAddr 4 (rd (at_ 2))).setAddr 5 (rd (at_ 2 + 3)) else k
  if bitN m 3 then { (k.setAddr 6 (rd (at_ 3 + 3))) with lc := wd (wordAt ws (at_ 3)) } else k

/-- The fault of a frame access on the memory stack: outside local memory, denied by the windows, or, for a read, a double-bit error (R205, R252, R263). `checked` says whether the windows apply. -/
def frameFault (s : State) (c : Nat) (store checked : Bool) (as : List Nat) : Option Exc :=
  let info := accessInfo store false true
  match firstOutside s c as with
  | some a => some ⟨0x03, info, some a⟩
  | none =>
    if checked && !winGrants (s.core c) (b2n store) as then some ⟨0x04, info, as.head?⟩ else
    if store then none else (firstBad s c as).map fun a => ⟨0x0F, 0, some a⟩

/-- CALL and CALLA (R251): the call frame is written below A7, then the jump. -/
def callOp (abs_ : Bool) (m imm : Nat) : CoreOp :=
  ⟨true, if abs_ then 0x0A else 0x09, m, imm, 4 + 2 * maskCount m, 0, 0, [], false, .machine fun x s =>
    let k := s.core x.c
    let base := localBase s x.c
    let n := 2 + 6 * maskCount m
    let fr := (k.addr 7 + 2 ^ 36 - n) % 2 ^ 36
    match frameFault s x.c true true (addrsFrom fr n) with
    | some e => .exc e
    | none =>
      let ret := (x.p + 2) % 2 ^ 36
      let s := ownWrites s x.c fr ([wd ((ret + 2 ^ 36 - base) % 2 ^ 36), wd m] ++ savedWords k m)
      .done (s.updCore x.c fun k => k.setAddr 7 fr) (some (if abs_ then (base + imm) % 2 ^ 36 else relTarget x (toSigned 16 imm)))⟩

/-- CALL. -/
def execCall (c : CoreId) (cond : Cond) (m : BitVec 4) (imm : Word) (s : State) : Out := issue (callOp false m.toNat imm.toNat) c cond s
/-- CALLA. -/
def execCalla (c : CoreId) (cond : Cond) (m : BitVec 4) (imm : Word) (s : State) : Out := issue (callOp true m.toNat imm.toNat) c cond s

/-- RET m (R252): the frame's mask must be m; its ADDR on a mismatch is left open. A fault of any word of the frame that m names comes first (DESIGN CHOICE, log entry 55). -/
def retOp (m : Nat) : CoreOp :=
  ⟨false, 0x11, m, 0, 4 + 2 * maskCount m, 0, 0, [], false, .machine fun x s =>
    let k := s.core x.c
    let n := 2 + 6 * maskCount m
    let fr := k.addr 7
    match frameFault s x.c false true (addrsFrom fr n) with
    | some e => .exc e
    | none =>
      let ws := (addrsFrom fr n).map (ownRead s x.c)
      if wordAt ws 1 ≠ m then .exc ⟨0x07, 0, none⟩ else
      .done (s.updCore x.c fun k => (restoreSaved k m (ws.drop 2)).setAddr 7 (fr + n)) (some ((localBase s x.c + wordAt ws 0) % 2 ^ 36))⟩

/-- RET m. -/
def execRet (c : CoreId) (cond : Cond) (m : BitVec 4) (s : State) : Out := issue (retOp m.toNat) c cond s

/-! Gates (R266) -/

/-- The gate table entry of gate g, by the checks of Table 9.5 and the machine check of a word that they read (R50): target offset and ring, or the exception. -/
def gateEntry (s : State) (c g : Nat) : Except Exc (Nat × Nat) :=
  let k := s.core c
  let a := localBase s c + k.gbase.toNat + 4 * g
  let bad (r : Nat) : Except Exc (Nat × Nat) := .error ⟨0x08, g, some r⟩
  if 255 < g ∨ k.gcount.toNat ≤ g then bad 1
  else if (firstOutside s c (addrsFrom a 4)).isSome then bad 2
  else match firstBad s c (addrsFrom a 4) with
  | some x => .error ⟨0x0F, 0, some x⟩
  | none =>
    let w (i : Nat) : Nat := (ownRead s c (a + i)).toNat
    if !bitN (w 1) 15 ∨ bitsN (w 1) 14 12 ≠ 0 ∨ bitsN (w 1) 7 6 ≠ 0 ∨ w 1 % 16 ≠ 0 ∨ w 2 ≠ 0 ∨ w 3 ≠ 0 then bad 3
    else if !bitN (w 1) (8 + k.ring) then bad 4
    else if k.ring < bitsN (w 1) 5 4 then bad 5
    else .ok (w 0, bitsN (w 1) 5 4)

/-- CALLG g (R266). -/
def callgOp (g : Nat) : CoreOp :=
  ⟨true, 0x0C, 0, g, 12, 0, 0, [], false, .machine fun x s =>
    let k := s.core x.c
    let base := localBase s x.c
    if k.fpp then .exc (fpTrap k) else
    match gateEntry s x.c g with
    | .error e => .exc e
    | .ok (target, ring) =>
        let top := if ring < k.ring then (k.ssp.getD ring 0).toNat else k.addr 7
        let fr := (top + 2 ^ 36 - 6) % 2 ^ 36
        match frameFault s x.c true false (addrsFrom fr 6) with
        | some e => .exc e
        | none =>
          let s := ownWrites s x.c fr (frameWords base ((x.p + 2) % 2 ^ 36) k.st.toNat (k.addr 7) (0x1000 + g) [])
          .done (s.updCore x.c fun k => (k.setAddr 7 fr).setSt 7 6 ring) (some ((base + target) % 2 ^ 36))⟩

/-- CALLG. -/
def execCallg (c : CoreId) (cond : Cond) (imm : Word) (s : State) : Out := issueWith (callgOp imm.toNat) noAoc c cond s

/-! RETX (R273) -/

/-- The fault reason of a return frame (Table 9.8); 0 where it passes. -/
def retxReason (k : Core) (kindWord saved : Nat) : Nat :=
  let kind := bitsN kindWord 15 12
  let ring := bitsN saved 7 6
  if (kind ≠ 1 ∧ kind ≠ 2) ∨ bitsN kindWord 11 8 ≠ 0 then 1
  else if kind = 2 ∧ k.ring ≠ 0 then 2
  else if ring < k.ring then 3
  else if bitsN saved 15 12 ≠ 0 then 4
  else if kind = 1 ∧ bitN saved 9 then 5
  else if 2 ≤ k.ring ∧ (bitN saved 8 ≠ k.ie ∨ bitN saved 11 ≠ k.fte) then 6
  else 0

/-- The core after a return: ST with FPP kept, A7, zeros above DEPTH where privilege falls, DF for the double-fault frame (R273 steps 4 to 6); late bus errors held for that frame may be taken again (R271). The AOC knows ring 0 only. -/
def returned (k : Core) (c base saved a7 : Nat) : Core :=
  let st := setBitsN saved 10 10 (b2n k.fpp)
  let st := if c = 17 then setBitsN st 7 6 0 else st
  let k' := { (k.setAddr 7 a7) with st := wd st, df := k.df && k.addr 7 != (base + 0xFFF0) % 2 ^ 36, lbeHold := if k.lbeHold = k.a[7]? then none else k.lbeHold }
  if k.ring < bitsN st 7 6 then { k' with stack := k'.stack.take k.depth ++ List.replicate (k.stack.length - k.depth) 0 } else k'

/-- RETX. -/
def retxOp : CoreOp :=
  ⟨false, 0x11, 0x10, 0, 10, 0, 0, [], false, .machine fun x s =>
    let k := s.core x.c
    let base := localBase s x.c
    let fr := k.addr 7
    if k.fpp then .exc (fpTrap k) else
    match frameFault s x.c false false [(fr + 5) % 2 ^ 36] with
    | some e => .exc e
    | none =>
      let kw := (ownRead s x.c ((fr + 5) % 2 ^ 36)).toNat
      let as := addrsFrom fr (if bitsN kw 15 12 = 2 then 10 else 6)
      match frameFault s x.c false false as with
      | some e => .exc e
      | none =>
        let ws := as.map (ownRead s x.c)
        let reason := retxReason k kw (wordAt ws 1)
        if reason ≠ 0 then .exc ⟨0x07, 0, some reason⟩ else
        .done (s.updCore x.c fun k => returned k x.c base (wordAt ws 1) (addrAt ws 2)) (some ((base + wordAt ws 0) % 2 ^ 36))⟩

/-- A return to a frame with REPA = 1 (R250, R273 step 7): the word returned to must be repeatable, else it is an illegal instruction there with REPA = 0; with RC = 0 no repetition is left. A word that cannot be fetched faults when it would issue, and an event that is due comes first (DEDUCED, log entry 15). -/
def resumeRepeat (s : State) (c : Nat) : State :=
  let k := s.core c
  if eventDue s c || (fetchFault s c k.pc.toNat).isSome then s
  else if (repeatable s c 0).isNone then raiseExc (s.updCore c fun k => k.setSt 9 9 0) c k.pc.toNat ⟨0x01, winWord s c 0, some 0⟩
  else if k.rc = 0 then skipRepeat s c else s

/-- RETX (R273). -/
def execRetx (c : CoreId) (cond : Cond) (s : State) : Out :=
  match issue retxOp c cond s with
  | .next t => ok (if !(s.core c.val).repa && (t.core c.val).repa then resumeRepeat t c.val else t)
  | r => r

/-! System instructions (Table 8.14) -/

/-- TRAP n and TRAPL: cause 0x10 with a code. -/
def trapOp (long : Bool) (low imm code : Nat) : CoreOp :=
  ⟨long, if long then 0x0F else 0x11, low, imm, 10, 0, 0, [], false, .machine fun _ _ => .trap code⟩
/-- SYNCI: the fetch window is emptied and refilled from the next instruction. -/
def synciOp : CoreOp := flowOp false 0x11 0x30 0 9 fun x s => (s, some ((x.p + x.len) % 2 ^ 36))
/-- A pass of WAIT (R255): it falls through where any interrupt is pending and IE = 0; else the core waits at the WAIT. -/
def waitOp : CoreOp :=
  flowOp false 0x11 0x40 0 2 fun x s =>
    if !(s.core x.c).ie && !(pendingCauses s x.c).isEmpty then (s, none)
    else (s.updCore x.c fun k => { k with waiting := true }, some x.p)
def cliOp : CoreOp := coreOp 0x11 0x50 1 0 0 fun k => .ok (k.setSt 8 8 0)
def stiOp : CoreOp := coreOp 0x11 0x60 1 0 0 fun k => .ok (k.setSt 8 8 1)
def haltOp : CoreOp := coreOp 0x11 0x70 1 0 0 fun k => .ok { k with halted := true }

/-- TRAP n. -/
def execTrap (c : CoreId) (cond : Cond) (n : Fin 16) (s : State) : Out := issue (trapOp false (0x20 + n.val) 0 n.val) c cond s
/-- TRAPL. -/
def execTrapl (c : CoreId) (cond : Cond) (imm : Word) (s : State) : Out := issue (trapOp true 0 imm.toNat imm.toNat) c cond s
/-- SYNCI. -/
def execSynci (c : CoreId) (cond : Cond) (s : State) : Out := issue synciOp c cond s
/-- WAIT (DEDUCED, log entry 13) (DEDUCED, log entry 15). -/
def execWait (c : CoreId) (cond : Cond) (s : State) : Out := issue waitOp c cond s
/-- CLI: IE := 0, rings 0 and 1. -/
def execCli (c : CoreId) (cond : Cond) (s : State) : Out := issueWith { cliOp with rep := false } (rings 1) c cond s
/-- STI: IE := 1, rings 0 and 1. -/
def execSti (c : CoreId) (cond : Cond) (s : State) : Out := issueWith { stiOp with rep := false } (rings 1) c cond s
/-- HALT: the core stops issuing, ring 0. -/
def execHalt (c : CoreId) (cond : Cond) (s : State) : Out := issueWith { haltOp with rep := false } (rings 0) c cond s

/-- Whether two words spell no instruction of Table 8.20's rows, or one that is a decode fault in the state; the cause. -/
def illegalCause (s : State) (c w0 w1 : Nat) : Option Nat :=
  let page := winPage (s.core c) 0
  let cust (k : Nat) : Option Nat :=
    let e := (page.1.getD k (0, 0)).1.toNat
    if c = 17 ∨ !deValid e then some 1 else if (s.core c).ring > deRingmax e then some 2 else none
  let ring := (s.core c).ring
  if !bitN w0 15 then
    let b := w0 % 256
    match bitsN w0 12 8 with
    | 0x0C | 0x0D => none
    | 0x0E => if (repeatable s c 1).isNone then some 1 else none
    | 0x11 =>
      if b < 0x10 ∨ b = 0x10 ∨ (0x20 ≤ b ∧ b < 0x30) ∨ b = 0x30 ∨ b = 0x40 then none
      else if b = 0x50 ∨ b = 0x60 then (if ring > 1 then some 2 else none)
      else if b = 0x70 then (if ring > 0 then some 2 else none)
      else some 1
    | 0x10 => if c = 17 then some 1 else if b = 0x10 then none else if (fpbOp b).isSome then none else some 1
    | 0x12 => if c = 17 ∨ b / 32 > 2 ∨ bitN b 4 then some 1 else none
    | 0x13 => if bitsN b 6 4 ≠ 0 then some 1 else none
    | maj =>
      if 0x18 ≤ maj then cust (maj - 0x18)
      else match shortOp maj b with
        | some o => if c = 17 ∧ isFp o then some 1 else none
        | none => some 1
  else if bitsN w0 14 11 = 15 then some 1
  else
    let sub := w0 % 16
    match bitsN w0 10 4 with
    | 0x01 | 0x02 | 0x03 | 0x04 | 0x05 | 0x09 | 0x0A | 0x11 | 0x15 | 0x16 => none
    | 0x00 | 0x06 | 0x07 | 0x0B | 0x0F => if sub ≠ 0 then some 1 else none
    | 0x08 => if sub ≠ 0 ∨ (repeatable s c 2).isNone then some 1 else none
    | 0x0C => if sub ≠ 0 ∨ c = 17 then some 1 else none
    | 0x0D => if sub ≠ 0 then some 1 else (ctlDecodes true w1).fault s c
    | 0x0E => if sub ≠ 0 then some 1 else (ctlDecodes false w1).fault s c
    | 0x10 => if c = 17 ∨ sub % 8 ≥ 6 then some 1 else none
    | 0x12 => if c = 17 ∨ bitsN w1 15 4 ≠ 0 then some 1 else none
    | 0x13 => if bitN sub 3 then some 1 else none
    | 0x14 => if bitN sub 3 then some 1 else (setamDecodes sub w1).fault s c
    | maj => if 0x70 ≤ maj ∧ maj < 0x78 then (if sub ≠ 0 then some 1 else cust (maj - 0x70 + 8)) else some 1

/-- A word, or two, that is a decode fault is taken as such whether its condition holds or not (R213, R261); words that are none do not issue by this command. A fault that only the second word shows comes behind that word's fetch (R261) (DESIGN CHOICE, log entry 5). -/
def execIllegalInstruction (c : CoreId) (w0 w1 : Word) (s : State) : Out :=
  let k := s.core c.val
  let s0 := s.updCore c.val Core.issuing
  if !coreRuns s c.val then ok s else if eventDue s c.val then ok (takeEvent s c.val) else
  match illegalCause s c.val w0.toNat w1.toNat with
  | none => ok s
  | some cause =>
    let second := bitN w0.toNat 15 && ((illegalCause s c.val w0.toNat 0).isNone || (w0.toNat % 2048 == 0x80 && bitsN w0.toNat 14 11 != 15))
    let e := match fetchFault s c.val k.pc.toNat with
      | some e => some e
      | none => if second then fetchFault s c.val ((k.pc.toNat + 1) % 2 ^ 36) else none
    ok (raiseExc s0 c.val k.pc.toNat (e.getD ⟨cause, w0.toNat, some 0⟩))

/-- An instruction boundary at which an event is taken (R269) (DEDUCED, log entry 16). -/
def execInterruptTaken (c : CoreId) (s : State) : Out := ok (takeEvent s c.val)

/-- A far access or ring access fails: its error is queued, or counted in LOST (R272). -/
def execLateBusError (c : CoreId) (store ring poisoned refused : Bool) (addr : Addr) (s : State) : Out :=
  if (s.core c.val).running then ok (queueLate s c.val (8 * b2n store + 4 * b2n ring + 2 * b2n poisoned + b2n refused) addr.toNat) else ok s

/-! Release (R198, R199) -/

/-- The decode page and microcode store of the master page (R282, R284). -/
def masterPage (s : State) : List (Word × Word) × WMap :=
  ((List.range 16).map fun k => (s.regW (Reg.CCX_MDE + 2 * k), s.regW (Reg.CCX_MDE + 2 * k + 1)),
    (List.range 1024).foldl (fun m i => wmapSet m i (s.regW (Reg.CCX_MSTEP + i)) 0) [])

/-- A core released into a role: every architectural state at its reset value, the PC at the first word of its window, and the master page copied (R199, Table 7.1), whose words the captures of the decode entries hold until their first read (R8). -/
def releaseCore (s : State) (c : Nat) (role : Fin 16) : State :=
  let base := 0x900000000 + role.val * 65536
  let page := masterPage s
  let k : Core := { Core.reset (some role) with pc := BitVec.ofNat 36 base, ssp := [BitVec.ofNat 36 (base + 0xFFF0), 0, 0], de := page.1, msteps := page.2, ctlCap := page.1.zipIdx.map fun e => (0xC1 + 2 * e.2, e.1.2), running := true }
  winRefill { s with cores := s.cores.set c k } c

/-- A core is released into a role, unless it is retired, running already, the AOC, or another core holds the role (R198). -/
def execCoreRelease (c : CoreId) (role : Fin 16) (s : State) : Out :=
  let k := s.core c.val
  let taken := (List.range 17).any fun d => d != c.val && (s.core d).role == some role && !(s.core d).retired
  if c = 17 ∨ k.retired ∨ k.running ∨ taken then ok s else ok (releaseCore s c.val role)

end Sys2Proof.Machine
end

