-- ==== Sys2Proof/Machine/MemMap.lean ====
section
/-! DEFINITION. The places behind the addresses: pseudo-channel, bank, row and column of HBM (R37, R38, R43), bank and line of the vector store (R46), channel, device and byte of the state store (R54). -/
namespace Sys2Proof.Machine
open Sys2Proof

/-! HBM -/

/-- The pseudo-channel that a hash gives a granule (Table 2.3). -/
def hashPc (hash g : Nat) : Nat :=
  let x := bitsN g 5 0
  match hash with
  | 0 => x
  | 1 => x ^^^ bitsN g 15 10 ^^^ bitsN g 25 20
  | 2 => x ^^^ bitsN g 11 6 ^^^ bitsN g 17 12 ^^^ bitsN g 23 18
  | _ => x ^^^ bitsN g 15 10 ^^^ bitsN g 25 20 ^^^ (bitsN g 9 6 * 4)

/-- The bank that a hash gives a granule (Table 2.3). -/
def hashBank (hash g : Nat) : Nat :=
  let x := bitsN g 9 6
  match hash with
  | 0 => x
  | 1 => x ^^^ bitsN g 19 16
  | 2 => x ^^^ bitsN g 13 10 ^^^ bitsN g 27 24
  | _ => x ^^^ bitsN g 19 16 ^^^ bitsN g 13 10

/-- Where HBM stores a word (R37): the pseudo-channel p = 32 × stack + 2 × channel + pseudo-channel, the bank, the place q of its granule in the bank, and the word of the granule. -/
structure HbmPlace where
  pc    : Nat
  bank  : Nat
  place : Nat
  word  : Nat
  deriving DecidableEq, Repr

/-- The row of a place in its bank, and the granule's column in the row (R37). -/
def HbmPlace.row (x : HbmPlace) : Nat := bitsN x.place 18 4
def HbmPlace.column (x : HbmPlace) : Nat := bitsN x.place 3 0

/-- Stack, channel and pseudo-channel of the channel (R37). -/
def HbmPlace.stack (x : HbmPlace) : Nat := x.pc / 32
def HbmPlace.channel (x : HbmPlace) : Nat := x.pc / 2 % 16
def HbmPlace.pseudo (x : HbmPlace) : Nat := x.pc % 2

/-- Where HBM stores the word at address `a` under the hash in effect; after a retirement a granule of the retired pseudo-channel lies in what was the fold-back range (R43), and while it migrates at its old place (R44) (DEDUCED, log entry 44). -/
def hbmPlace (s : State) (a : Nat) : HbmPlace :=
  let g := bitsN a 33 5
  let hash := s.regF Reg.MEM_HASH 1 0
  let x : HbmPlace := ⟨hashPc hash g, hashBank hash g, bitsN g 28 10, a % 32⟩
  match s.memc.retiredPc with
  | some r => if r.val = x.pc ∧ !s.memc.migrating then { x with pc := (x.pc + 1 + bitsN g 28 23) % 64, place := 0x3F * 8192 + bitsN g 22 10 } else x
  | none => x

/-- The pseudo-channel that stores an HBM word address. -/
def pcOf (s : State) (a : Nat) : Nat := (hbmPlace s a).pc

/-! Vector store -/

/-- Where the vector store keeps a word (R46): bank, line of 64 bits in the bank, word of the unit. -/
structure VsPlace where
  bank : Nat
  line : Nat
  word : Nat
  deriving DecidableEq, Repr

/-- The place of a vector-store word address. -/
def vsPlace (a : Nat) : VsPlace :=
  let o := a - 0x800000000
  let u := bitsN o 25 2
  ⟨bitsN u 9 0 ^^^ bitsN u 19 10, bitsN u 23 10, o % 4⟩

/-- The bank of a vector-store word address. -/
def bankOf (a : Nat) : Nat := (vsPlace a).bank

/-! State store -/

/-- Where the state store keeps the word at a window offset (R54): channel, device of the channel, and the byte address in the device. -/
structure SsPlace where
  chan : Nat
  dev  : Nat
  byte : Nat
  deriving DecidableEq, Repr

/-- The channels in use: 4, 2 or 1 (Table 2.16). -/
def ssChannels (s : State) : Nat := match s.regF Reg.MEM_SS_CFG 13 12 with | 3 => 4 | 2 => 2 | _ => 1

/-- The place of a state-store window offset, striped in units of 128 words; with 2 devices the most significant bit of the channel offset selects the device (R54). -/
def ssPlace (s : State) (o : Nat) : SsPlace :=
  let n := ssChannels s
  let off := o / 128 / n * 128 + o % 128
  let dev := s.ssWords / n / (1 + s.regF Reg.MEM_SS_CFG 11 11)
  if dev = 0 then ⟨0, 0, 0⟩ else ⟨o / 128 % n, off / dev, 2 * (off % dev)⟩

/-- The channel of a state-store window offset. -/
def ssChan (s : State) (o : Nat) : Nat := (ssPlace s o).chan

/-- Whether a channel has part of a journal slot to write first (R58): a slot begins on channel 0 and is striped in units of 128 words (R54, R57). -/
def jrnHolds (s : State) (ch : Nat) : Bool :=
  match s.boot.jrnSlot with
  | some img => decide (128 * ch < 32 + 15 * img.length)
  | none => false

/-- Whether a channel serves a read or write of a level at the window offsets [o, o+n) now: no write of a higher priority waits in the channels it reaches (R58) (DESIGN CHOICE, log entry 29). -/
def ssServes (s : State) (level o n : Nat) : Bool :=
  (s.memc.ssq.all fun e => decide (level ≤ e.2.1) || !((List.range n).any fun i => ssChan s (o + i) == e.1)) && !((List.range n).any fun i => jrnHolds s (ssChan s (o + i)))

/-- Whether a write of a level at the window offsets [o, o+n) is served at once: no other of its priority or a higher one waits in its channels (R58). -/
def ssFree (s : State) (level o n : Nat) : Bool :=
  (s.memc.ssq.all fun e => decide (level < e.2.1) || !((List.range n).any fun i => ssChan s (o + i) == e.1)) && !((List.range n).any fun i => jrnHolds s (ssChan s (o + i)))

/-- The address of record i of the waymark log, of 8 words, in AOC SRAM (R407). -/
def wmLogAt (i : Nat) : Nat := 0x900FF0000 + Config.waymarkLog % 0x7F41 + 8 * i
/-- The address of the queued event-log entry of a SEQ, of 16 words, in a queue of 256 (R429). -/
def queuedAt (seq : Nat) : Nat := Config.eventQueue % 0x3EFFFF000 + 16 * (seq % 256)

/-- Whether a read of n words at an address need not wait in the state store (R58). -/
def storeServes (s : State) (a n : Nat) : Bool := match spaceOf s a with | .store o => ssServes s 5 o n | _ => true

end Sys2Proof.Machine
end

