-- ==== Sys2Proof/Machine/Crypto.lean ====
section
/-! DEFINITION. The hash and signature functions that the security block and the slate checks name (R307, R308, R409, R426): SHA-256, SHA-384 and ECDSA over P-256 and P-384, as FIPS 180-4 and FIPS 186-5 define them. PRESUMED: the spec names the functions and does not print them. -/
namespace Sys2Proof.Machine
open Sys2Proof

/-- Bytes, most significant first, as a number. -/
def natOfBytesBE (bs : List Byte) : Nat := bs.foldl (fun a b => a * 256 + b.toNat) 0
/-- A number as n bytes, most significant first. -/
def bytesBE (n v : Nat) : List Byte := (bytesOfNat n v).reverse

/-- The round constants of SHA-256. -/
def sha256K : List Nat :=
    [0x428A2F98, 0x71374491, 0xB5C0FBCF, 0xE9B5DBA5, 0x3956C25B, 0x59F111F1, 0x923F82A4, 0xAB1C5ED5] ++
    [0xD807AA98, 0x12835B01, 0x243185BE, 0x550C7DC3, 0x72BE5D74, 0x80DEB1FE, 0x9BDC06A7, 0xC19BF174] ++
    [0xE49B69C1, 0xEFBE4786, 0x0FC19DC6, 0x240CA1CC, 0x2DE92C6F, 0x4A7484AA, 0x5CB0A9DC, 0x76F988DA] ++
    [0x983E5152, 0xA831C66D, 0xB00327C8, 0xBF597FC7, 0xC6E00BF3, 0xD5A79147, 0x06CA6351, 0x14292967] ++
    [0x27B70A85, 0x2E1B2138, 0x4D2C6DFC, 0x53380D13, 0x650A7354, 0x766A0ABB, 0x81C2C92E, 0x92722C85] ++
    [0xA2BFE8A1, 0xA81A664B, 0xC24B8B70, 0xC76C51A3, 0xD192E819, 0xD6990624, 0xF40E3585, 0x106AA070] ++
    [0x19A4C116, 0x1E376C08, 0x2748774C, 0x34B0BCB5, 0x391C0CB3, 0x4ED8AA4A, 0x5B9CCA4F, 0x682E6FF3] ++
    [0x748F82EE, 0x78A5636F, 0x84C87814, 0x8CC70208, 0x90BEFFFA, 0xA4506CEB, 0xBEF9A3F7, 0xC67178F2]

/-- The round constants of SHA-384. -/
def sha512K : List Nat :=
    [0x428A2F98D728AE22, 0x7137449123EF65CD, 0xB5C0FBCFEC4D3B2F, 0xE9B5DBA58189DBBC] ++
    [0x3956C25BF348B538, 0x59F111F1B605D019, 0x923F82A4AF194F9B, 0xAB1C5ED5DA6D8118] ++
    [0xD807AA98A3030242, 0x12835B0145706FBE, 0x243185BE4EE4B28C, 0x550C7DC3D5FFB4E2] ++
    [0x72BE5D74F27B896F, 0x80DEB1FE3B1696B1, 0x9BDC06A725C71235, 0xC19BF174CF692694] ++
    [0xE49B69C19EF14AD2, 0xEFBE4786384F25E3, 0x0FC19DC68B8CD5B5, 0x240CA1CC77AC9C65] ++
    [0x2DE92C6F592B0275, 0x4A7484AA6EA6E483, 0x5CB0A9DCBD41FBD4, 0x76F988DA831153B5] ++
    [0x983E5152EE66DFAB, 0xA831C66D2DB43210, 0xB00327C898FB213F, 0xBF597FC7BEEF0EE4] ++
    [0xC6E00BF33DA88FC2, 0xD5A79147930AA725, 0x06CA6351E003826F, 0x142929670A0E6E70] ++
    [0x27B70A8546D22FFC, 0x2E1B21385C26C926, 0x4D2C6DFC5AC42AED, 0x53380D139D95B3DF] ++
    [0x650A73548BAF63DE, 0x766A0ABB3C77B2A8, 0x81C2C92E47EDAEE6, 0x92722C851482353B] ++
    [0xA2BFE8A14CF10364, 0xA81A664BBC423001, 0xC24B8B70D0F89791, 0xC76C51A30654BE30] ++
    [0xD192E819D6EF5218, 0xD69906245565A910, 0xF40E35855771202A, 0x106AA07032BBD1B8] ++
    [0x19A4C116B8D2D0C8, 0x1E376C085141AB53, 0x2748774CDF8EEB99, 0x34B0BCB5E19B48A8] ++
    [0x391C0CB3C5C95A63, 0x4ED8AA4AE3418ACB, 0x5B9CCA4F7763E373, 0x682E6FF3D6B2B8A3] ++
    [0x748F82EE5DEFB2FC, 0x78A5636F43172F60, 0x84C87814A1F0AB72, 0x8CC702081A6439EC] ++
    [0x90BEFFFA23631E28, 0xA4506CEBDE82BDE9, 0xBEF9A3F7B2C67915, 0xC67178F2E372532B] ++
    [0xCA273ECEEA26619C, 0xD186B8C721C0C207, 0xEADA7DD6CDE0EB1E, 0xF57D4F7FEE6ED178] ++
    [0x06F067AA72176FBA, 0x0A637DC5A2C898A6, 0x113F9804BEF90DAE, 0x1B710B35131C471B] ++
    [0x28DB77F523047D84, 0x32CAAB7B40C72493, 0x3C9EBE0A15C9BEBC, 0x431D67C49C100D4C] ++
    [0x4CC5D4BECB3E42B6, 0x597F299CFC657E2A, 0x5FCB6FAB3AD6FAEC, 0x6C44198C4A475817]

/-- The initial values of SHA-256. -/
def sha256H : List Nat := [0x6A09E667, 0xBB67AE85, 0x3C6EF372, 0xA54FF53A, 0x510E527F, 0x9B05688C, 0x1F83D9AB, 0x5BE0CD19]

/-- The initial values of SHA-384. -/
def sha384H : List Nat :=
    [0xCBBB9D5DC1059ED8, 0x629A292A367CD507, 0x9159015A3070DD17, 0x152FECD8F70E5939] ++
    [0x67332667FFC00B31, 0x8EB44A8768581511, 0xDB0C2E0D64F98FA7, 0x47B5481DBEFA4FA4]

/-- Rotation of a w-bit number to the right. -/
def rotr (w x n : Nat) : Nat := (x >>> n) ||| ((x <<< (w - n)) % 2 ^ w)

/-- The rotation and shift counts of a hash: Σ0, Σ1, then σ0, σ1 with a shift last. -/
structure ShaParam where
  w  : Nat
  a0 : List Nat
  a1 : List Nat
  s0 : List Nat
  s1 : List Nat
  k  : List Nat
  deriving DecidableEq, Repr

def sha256P : ShaParam := ⟨32, [2, 13, 22], [6, 11, 25], [7, 18, 3], [17, 19, 10], sha256K⟩
def sha512P : ShaParam := ⟨64, [28, 34, 39], [14, 18, 41], [1, 8, 7], [19, 61, 6], sha512K⟩

/-- XOR of three rotations. -/
def bigSigma (w : Nat) (r : List Nat) (x : Nat) : Nat := rotr w x (r.getD 0 0) ^^^ rotr w x (r.getD 1 0) ^^^ rotr w x (r.getD 2 0)
/-- XOR of two rotations and a shift. -/
def smallSigma (w : Nat) (r : List Nat) (x : Nat) : Nat := rotr w x (r.getD 0 0) ^^^ rotr w x (r.getD 1 0) ^^^ (x >>> r.getD 2 0)

/-- The message schedule, newest word first. -/
def shaSchedule (p : ShaParam) : Nat → List Nat → List Nat
  | 0, l => l
  | n + 1, l =>
    let x := (smallSigma p.w p.s1 (l.getD 1 0) + l.getD 6 0 + smallSigma p.w p.s0 (l.getD 14 0) + l.getD 15 0) % 2 ^ p.w
    shaSchedule p n (x :: l)

/-- One round. -/
def shaRound (p : ShaParam) (h : List Nat) (kw : Nat) : List Nat :=
  match h with
  | [a, b, c, d, e, f, g, x] =>
    let t1 := (x + bigSigma p.w p.a1 e + ((e &&& f) ^^^ ((2 ^ p.w - 1 - e) &&& g)) + kw) % 2 ^ p.w
    let t2 := (bigSigma p.w p.a0 a + ((a &&& b) ^^^ (a &&& c) ^^^ (b &&& c))) % 2 ^ p.w
    [(t1 + t2) % 2 ^ p.w, a, b, c, (d + t1) % 2 ^ p.w, e, f, g]
  | l => l

/-- One block of 16 words. -/
def shaBlock (p : ShaParam) (h ws : List Nat) : List Nat :=
  let sched := (shaSchedule p (p.k.length - 16) ws.reverse).reverse
  let r := ((sched.zip p.k).map fun (a, b) => (a + b) % 2 ^ p.w).foldl (shaRound p) h
  (h.zip r).map fun (a, b) => (a + b) % 2 ^ p.w

/-- The blocks of a padded message, in turn. -/
def shaBlocks (p : ShaParam) : Nat → List Byte → List Nat → List Nat
  | 0, _, h => h
  | n + 1, bs, h =>
    let wb := p.w / 8
    let ws := (List.range 16).map fun i => natOfBytesBE ((bs.drop (i * wb)).take wb)
    shaBlocks p n (bs.drop (16 * wb)) (shaBlock p h ws)

/-- The padded message: a 1 bit, zeros, and the length in bits. -/
def shaPad (p : ShaParam) (bs : List Byte) : List Byte :=
  let blk := 2 * p.w
  let lenB := p.w / 4
  let z := (blk - (bs.length + 1 + lenB) % blk) % blk
  bs ++ [0x80] ++ List.replicate z 0 ++ bytesBE lenB (8 * bs.length)

def shaRun (p : ShaParam) (h : List Nat) (bs : List Byte) : List Byte :=
  let m := shaPad p bs
  (shaBlocks p (m.length / (2 * p.w)) m h).flatMap (bytesBE (p.w / 8))

/-- SHA-256 (PRESUMED, log entry 21). -/
def sha256 (bs : List Byte) : List Byte := shaRun sha256P sha256H bs
/-- SHA-384 (PRESUMED, log entry 21). -/
def sha384 (bs : List Byte) : List Byte := (shaRun sha512P sha384H bs).take 48

/-! ECDSA -/

/-- A short Weierstrass curve with a = −3 and prime order. -/
structure Curve where
  p  : Nat
  n  : Nat
  b  : Nat
  gx : Nat
  gy : Nat
  bytes : Nat
  deriving DecidableEq, Repr

def p256 : Curve where
  p := 0xFFFFFFFF00000001000000000000000000000000FFFFFFFFFFFFFFFFFFFFFFFF
  n := 0xFFFFFFFF00000000FFFFFFFFFFFFFFFFBCE6FAADA7179E84F3B9CAC2FC632551
  b := 0x5AC635D8AA3A93E7B3EBBD55769886BC651D06B0CC53B0F63BCE3C3E27D2604B
  gx := 0x6B17D1F2E12C4247F8BCE6E563A440F277037D812DEB33A0F4A13945D898C296
  gy := 0x4FE342E2FE1A7F9B8EE7EB4A7C0F9E162BCE33576B315ECECBB6406837BF51F5
  bytes := 32

def p384 : Curve where
  p := 0xFFFFFFFFFFFFFFFFFFFFFFFFFFFFFFFFFFFFFFFFFFFFFFFFFFFFFFFFFFFFFFFEFFFFFFFF0000000000000000FFFFFFFF
  n := 0xFFFFFFFFFFFFFFFFFFFFFFFFFFFFFFFFFFFFFFFFFFFFFFFFC7634D81F4372DDF581A0DB248B0A77AECEC196ACCC52973
  b := 0xB3312FA7E23EE7E4988E056BE3F82D19181D9C6EFE8141120314088F5013875AC656398D8A2ED19D2A85C8EDD3EC2AEF
  gx := 0xAA87CA22BE8B05378EB1C71EF320AD746E1D3B628BA79B9859F741E082542A385502F25DBF55296C3A545E3872760AB7
  gy := 0x3617DE4A96262C6F5D9E98BF9292DC29F8F41DBD289A147CE9DA3113B5F0B8C00A60B1CE1D7E819D7A431D7C90EA0E5F
  bytes := 48

/-- Extended Euclid: the coefficient of a in gcd(a, m), by fuel. -/
def egcd : Nat → Int → Int → Int → Int → Int
  | 0, _, _, x, _ => x
  | k + 1, a, b, x, y => if b = 0 then x else egcd k b (a % b) y (x - a / b * y)

/-- The inverse of a modulo m. -/
def invMod (a m : Nat) : Nat := (egcd 2000 (a : Int) (m : Int) 1 0 % (m : Int)).toNat

/-- A point; none is the point at infinity. -/
abbrev Pt := Option (Nat × Nat)

/-- Addition of points. -/
def Curve.add (c : Curve) : Pt → Pt → Pt
  | none, q => q
  | q, none => q
  | some (x1, y1), some (x2, y2) =>
    if x1 = x2 ∧ (y1 + y2) % c.p = 0 then none else
    let l := if x1 = x2 then ((3 * x1 * x1 + (c.p - 3)) * invMod (2 * y1 % c.p) c.p) % c.p
      else ((y2 + c.p - y1) * invMod ((x2 + c.p - x1) % c.p) c.p) % c.p
    let x3 := (l * l + 2 * c.p - x1 - x2) % c.p
    some (x3, (l * (x1 + c.p - x3) + c.p - y1) % c.p)

/-- A multiple of a point, over the bits of a scalar below 2^k. -/
def Curve.mul (c : Curve) : Nat → Nat → Pt → Pt
  | 0, _, _ => none
  | k + 1, v, q => let h := c.mul k (v / 2) (c.add q q); if v % 2 = 1 then c.add q h else h

/-- Verification of a signature (r, s) over a digest with a public key (FIPS 186-5) (PRESUMED, log entry 21). -/
def Curve.verify (c : Curve) (qx qy r s : Nat) (digest : List Byte) : Bool :=
  let z := natOfBytesBE (digest.take c.bytes)
  let on := qx < c.p && qy < c.p && (qy * qy) % c.p == (qx * qx * qx + (c.p - 3) * qx + c.b) % c.p
  let w := invMod s c.n
  let pt := c.add (c.mul (8 * c.bytes) (z * w % c.n) (some (c.gx, c.gy))) (c.mul (8 * c.bytes) (r * w % c.n) (some (qx, qy)))
  on && 0 < r && r < c.n && 0 < s && s < c.n && match pt with | some (x, _) => x % c.n == r | none => false

/-- A key (x then y) and a signature (r then s), most significant byte first, as Table 10.10 lays them out. -/
def Curve.verifyBytes (c : Curve) (key sig : List Byte) (digest : List Byte) : Bool :=
  let n := c.bytes
  let f (l : List Byte) (i : Nat) : Nat := natOfBytesBE ((l.drop (i * n)).take n)
  c.verify (f key 0) (f key 1) (f sig 0) (f sig 1) digest

end Sys2Proof.Machine
end

