-- ==== Sys2Proof/Machine/Plan.lean ====
section
/-! DEFINITION. Reading the roof plan in effect: sections, placements, geometry and interrupt roles (R412, Table 15.7), and what depends on them everywhere: state planes, pixel addresses, interrupt classes. -/
namespace Sys2Proof.Machine
open Sys2Proof

/-- A section of a plan: type, body, and the words its CRC covers with the CRC that stands after them. -/
structure Section where
  type  : Nat
  body  : List Word
  crcOk : Bool
  rsvOk : Bool
  last  : Nat
  deriving DecidableEq, Repr

/-- Sections from word `pos` on (R412); none where the framing breaks. -/
def sectionsFrom (ws : List Word) : Nat → Nat → Option (List Section)
  | 0, _ => none
  | fuel + 1, pos =>
    if pos = ws.length then some [] else
    let r := ws.drop pos
    let blen := dwordAt r 1
    if r.length < 5 + blen then none else
    let crc := dwordAt r (3 + blen)
    match sectionsFrom ws fuel (pos + 5 + blen) with
    | none => none
    | some l => some (⟨wordAt r 0 % 256, (r.drop 3).take blen, crc32Words (r.take (3 + blen)) == crc, wordAt r 0 < 256, pos + 5 + blen⟩ :: l)

/-- The sections of a plan, in order; empty where its framing breaks. -/
def planSections (ws : List Word) : List Section := (sectionsFrom ws 64 8).getD []

/-- The body of a section of a plan; empty where the plan has none. -/
def sectionBody (ws : List Word) (type : Nat) : List Word :=
  match (planSections ws).find? (·.type == type) with
  | some x => x.body
  | none => []

/-- Whether a plan has a section. -/
def hasSection (ws : List Word) (type : Nat) : Bool := (planSections ws).any (·.type == type)

/-- A placement of the MEMORY section (Table 15.7). -/
structure Placement where
  port  : Nat
  kind  : Nat
  base  : Nat
  size  : Nat
  pitch : Nat
  deriving DecidableEq, Repr

/-- Placements from the words after MEM_HASH, eight words each. -/
def placementsOf : Nat → List Word → List Placement
  | 0, _ => []
  | fuel + 1, ws =>
    if ws.length < 8 then [] else
    ⟨bitsN (wordAt ws 0) 13 8, wordAt ws 0 % 256, addrAt ws 2, dwordAt ws 5, wordAt ws 7⟩ :: placementsOf fuel (ws.drop 8)

/-- The placements of a plan. -/
def planPlacements (ws : List Word) : List Placement := let b := (sectionBody ws 0x04).drop 1; placementsOf b.length b

/-- The placement of a kind in the plan in effect; port matters for the per-port kinds. -/
def State.place (s : State) (kind port : Nat) : Option Placement :=
  (planPlacements s.boot.plan).find? fun x => x.kind == kind && (x.port == port || kind ≥ 0x07)

/-- A slate's position on the roof (GEOMETRY): X, Y, WIDTH, HEIGHT. -/
structure Geom where
  x : Nat
  y : Nat
  w : Nat
  h : Nat
  deriving DecidableEq, Repr

/-- Position k of GEOMETRY. -/
def planGeom (ws : List Word) (k : Nat) : Geom :=
  let b := (sectionBody ws 0x01).drop (2 + 4 * k)
  ⟨wordAt b 0, wordAt b 1, wordAt b 2, wordAt b 3⟩

/-- The PORTS word of a port. -/
def planPort (ws : List Word) (p : Nat) : Nat := wordAt (sectionBody ws 0x02) p

/-- The GEOMETRY entry of a port that the plan in effect enables. -/
def State.geom (s : State) (p : Nat) : Option Geom :=
  let w := planPort s.boot.plan p
  if bitN w 15 then some (planGeom s.boot.plan (w % 64)) else none

/-- The course of a port (SL_PCFGn.COURSE). -/
def State.courseOf (s : State) (p : Nat) : Nat := s.regF (Reg.SL_PCFG + 32 * p) 14 12

/-- Whether the plan enables a port (SL_PCFGn.EN). -/
def State.portEn (s : State) (p : Nat) : Bool := s.regF (Reg.SL_PCFG + 32 * p) 15 15 == 1

/-- The ports of a course. -/
def State.portsOf (s : State) (co : Nat) : List Nat := (List.range 64).filter fun p => s.portEn p && s.courseOf p == co

/-- The state planes of the plan in effect. -/
def State.planes (s : State) : List Placement := (planPlacements s.boot.plan).filter (·.kind == 0x01)

/-- Whether a word lies in a state plane (R27). -/
def inStatePlane (s : State) (a : Nat) : Bool := s.planes.any fun p => p.base ≤ a && a < p.base + p.size

/-- Whether a range overlaps a state plane. -/
def overlapsPlane (s : State) (a n : Nat) : Bool := s.planes.any fun p => decide (a < p.base + p.size) && decide (p.base < a + n) && decide (0 < n)

/-- The address of pixel (x, y) in a plane of a port. -/
def State.pixelIn (s : State) (kind p x y : Nat) : Option Nat :=
  (s.place kind p).map fun pl => pl.base + y * pl.pitch + x

/-- The pixel state word of pixel (x, y) of a port's slate (R24); 0 where no plane is placed. -/
def State.pixel (s : State) (p x y : Nat) : Nat :=
  match s.pixelIn 0x01 p x y with
  | some a => (memGet s a).toNat
  | none => 0

/-- A pixel state word written. -/
def State.setPixel (s : State) (p x y v : Nat) : State :=
  match s.pixelIn 0x01 p x y with
  | some a => memSet s a (wd v)
  | none => s

/-- The pixels of a rectangle in line order. -/
def rectPixels (r : Rect) : List (Nat × Nat) :=
  (List.range r.h).flatMap fun j => (List.range r.w).map fun i => (r.x + i, r.y + j)

/-- A function applied to the state word of every pixel of a rectangle. -/
def State.mapPixels (s : State) (p : Nat) (r : Rect) (f : Nat → Nat) : State :=
  (rectPixels r).foldl (fun s q => s.setPixel p q.1 q.2 (f (s.pixel p q.1 q.2))) s

/-! Fields of a pixel state word (Table 1.1). -/
def psHeld (w : Nat) : Bool := bitN w 15
def psOpen (w : Nat) : Bool := bitN w 14
def psTrim (w : Nat) : Nat := bitsN w 13 10
def psT (w : Nat) : Nat := bitsN w 9 5
def psS (w : Nat) : Nat := bitsN w 4 0

/-- The role that the plan's RINGS section names for interrupt cause 0x14 to 0x1A; role 0 when it names none (R267). -/
def State.classRole (s : State) (cause : Nat) : Nat :=
  let b := sectionBody s.boot.plan 0x08
  let w := wordAt b (32 + 48 + 128 + 3 + 16 + (cause - 0x14))
  if bitN w 15 then w % 16 else 0

/-- An interrupt of a class cause is raised on the role the plan names (R267). -/
def raiseClass (s : State) (cause info : Nat) : State := raiseInt s (s.classRole cause) cause info 0

/-- A cause 0x19 interrupt with its reason (R447), on role 0 for the reasons R431 and R437 name, else by class. -/
def raiseRas (s : State) (reason role : Nat) : State := raiseInt s (s.classRole 0x19) 0x19 (reason * 4096 + role) 0

/-- The code of a power state, as PM_STAT.STATE. -/
def PowerState.code : PowerState → Nat
  | .off => 0 | .sleep => 1 | .doze => 2 | .idle => 3 | .run => 4

/-- The power state changes: SMBALERT# (R391), EV-0x6010 with the old state, the new one and the wake source (0xFF: none), and cause 0x18 with reason 0x1 (R360). -/
def setPower (s : State) (st : PowerState) (wake : Nat := 0xFF) : State :=
  if s.power.st = st then s else
  raiseClass (logEv (alertLow { s with power := { s.power with st := st } }) 0x6010 .note 8 0xFF [s.power.st.code, st.code, wake]) 0x18 0x1000

/-- Whether a wake source of Table 12.4 is enabled (AON_WAKEEN). -/
def wakeEnabled (s : State) (b : Nat) : Bool := b < 2 || bitN (s.reg Reg.AON_WAKEEN) b

/-- A wake source in RUN or IDLE raises cause 0x1A (R351). Its INFO is a free value: no chapter gives one (DEDUCED, log entry 41). -/
def aonEvent (s : State) (b : Nat) : State :=
  if !wakeEnabled s b || !(s.power.st == .run || s.power.st == .idle) then s else
  let (v, s) := s.free
  raiseClass s 0x1A (v.toNat % 65536)

/-- In DOZE, outside a stop or a transition out of it, no clock of the engine, the cores, the W units or the state-store interface runs (Tables 12.1, 12.6). -/
def dozing (s : State) : Bool := s.power.st == .doze && !s.power.inTrans && s.power.vinStep == 0

/-- A vector push, a doorbell, a DMA request or a planning point returns the device from IDLE to RUN (R345); a DOZE that PM_AUTO asked for in IDLE lapses (R347). In DOZE the work waits for the exit. -/
def leaveIdle (s : State) : State :=
  if s.power.st = .doze then s else
  let s := { s with power := { s.power with idleWatch := false, clkWf := true, clkXspi := true, cur := s.power.cur.filter fun o => o.src != .auto } }
  if s.power.st = .idle then setPower s .run else s

end Sys2Proof.Machine
end

