-- ==== Sys2Proof/Machine/SideOps.lean ====
section
/-! DEFINITION. The side lane's responses and orders (R392, R393, R398), and the values recorded at entry to SLEEP and DOZE (R394). -/
namespace Sys2Proof.Machine
open Sys2Proof

/-- Kwavis statuses (Table 14.3). -/
inductive KStatus where
  | ok | yielded | badMessage | badLength | busy | notReady | checkFailed
  deriving DecidableEq, Repr

def KStatus.code : KStatus → Byte
  | .ok => 0 | .yielded => 1 | .badMessage => 2 | .badLength => 3 | .busy => 4 | .notReady => 5 | .checkFailed => 6

/-! Packets sent (R388, R389). The layout is DSP0237's (PRESUMED, log entry 26). -/

/-- One bit of SMBus's CRC-8, x^8 + x^2 + x + 1. -/
def pecBit (c : Byte) : Byte := if c.getLsbD 7 then (c <<< 1) ^^^ 7 else c <<< 1

/-- The packet error code of a transaction's bytes (R388). -/
def pecOf (bs : List Byte) : Byte := bs.foldl (fun c b => (List.range 8).foldl (fun c _ => pecBit c) (c ^^^ b)) 0

/-- The 7-bit target address (R389). -/
def sideAddress (s : State) : Nat := 0x2C + s.side.strap.toNat

/-- Packet `i` of the `n` of a message: an SMBus Block Write of command 0x0F to the endpoint that asked, from the own target address, with the MCTP header, the payload and the PEC (Table 14.1). -/
def packetOf (s : State) (dst : Byte) (tag : BitVec 3) (n i : Nat) (part : List Byte) : List Byte :=
  let flags := 128 * b2n (i == 0) + 64 * b2n (i + 1 == n) + 16 * (i % 4) + tag.toNat
  let bs := [BitVec.ofNat 8 (2 * (Config.sideAddr dst).toNat), 0x0F, BitVec.ofNat 8 (5 + part.length), BitVec.ofNat 8 (2 * sideAddress s + 1), 1, dst, s.side.eid, BitVec.ofNat 8 flags] ++ part
  bs ++ [pecOf bs]

/-- A message is sent to the endpoint that asked, in packets of the baseline transmission unit of 64 bytes (R388). -/
def sendMessage (s : State) (dst : Byte) (tag : BitVec 3) (bs : List Byte) : State :=
  let n := divCeil bs.length 64
  { s with side := { s.side with lastResp := bs, sent := (List.range n).map fun i => packetOf s dst tag n i ((bs.drop (64 * i)).take 64) } }

/-- A Kwavis response (Table 14.2) is sent. -/
def sendKwavis (s : State) (dst : Byte) (tag : BitVec 3) (code inst : Byte) (st : KStatus) (body : List Byte) : State :=
  sendMessage s dst tag ([0x7E, 0x1F, 0xA7, 0x01, code, 0x80, inst, st.code] ++ body)

/-- A request is answered, and waits no more. -/
def respond (s : State) (m : KMsg) (st : KStatus) (body : List Byte := []) : State :=
  sendKwavis { s with side := { s.side with msgs := s.side.msgs.erase m } } m.src m.tag m.code m.inst st body

/-- The earliest tick that an order still to act, or still to be taken, can have. -/
def oldestTick (s : State) : Nat :=
  ((s.side.msgs.map (·.tick)) ++ s.hif.rings.flatMap fun g => (g.taken.filter (!·.started)).map (·.tick) ++ g.bells.map (·.2.2)).foldl (fun n t => min n t.toNat) s.aon.tick.toNat

/-- An order stamped with its tick (R398); those are kept that an order still to act can share a tick with. -/
def noteOrder (s : State) (tick : BitVec 48) (host : Bool) (kind : Byte) (value : Nat) : State :=
  { s with side := { s.side with orders := (s.side.orders.filter fun o => decide (oldestTick s ≤ o.1.toNat)) ++ [(tick, host, kind, value)] } }

/-- Whether an order of the side lane with an earlier tick, one of the messages named, still waits to act (R398). -/
def earlierSide (s : State) (tick : BitVec 48) (codes : List Byte) : Bool :=
  s.side.msgs.any fun m => codes.contains m.code && decide (m.tick.toNat < tick.toNat) && s.side.curReset != some m && s.side.keptReset != some m

/-- The values recorded at entry to SLEEP or DOZE (R394): TMAX, VIN, the HBM temperatures, courses UP, courses lit, ports ACTIVE, slates drivable, slates expired, throttle, and the base of the log's indices (R395). -/
def staleWords (s : State) : List Word :=
  let c (f : Course → Bool) : Nat := (s.courses.filter f).length
  let p (f : Port → Bool) : Nat := (s.ports.filter f).length
  [wd (s.reg Reg.PM_TMAX), wd (s.reg Reg.RL_VIN), wd (s.reg Reg.PM_HBMT), wd (s.reg (Reg.PM_HBMT + 1)), wd (c fun c => c.rail == .up), wd (c fun c => c.flEn),
    wd (p fun t => t.st == .active), wd (p fun t => t.drivable && t.slate.isSome), wd (p (·.expired)), wd (b2n s.power.throttle)] ++ wordsOfNat 2 (s.reg Reg.RAS_EVBASE 2)

/-- The entry to SLEEP or DOZE records them (DEDUCED, log entry 28). -/
def recordStale (s : State) : State := { s with side := { s.side with stale := staleWords s } }

/-- The slot of a side-lane RESET is durable: its response is sent (R397). -/
def answerReset (s : State) : State :=
  match s.side.curReset with
  | some m => respond { s with side := { s.side with curReset := none } } m .ok
  | none => s

end Sys2Proof.Machine
end

