-- ==== Sys2Proof/Machine/HostPost.lean ====
section
/-! DEFINITION. Completion statuses, the request audit and the posting of completion entries (R371 to R375, R445). -/
namespace Sys2Proof.Machine
open Sys2Proof

/-- Completion statuses (Table 13.15). -/
inductive Status where
  | ok | merged | cancelled | late | badCommand | badRegion | noSlate | permission | yielded | slateLost
  deriving DecidableEq, Repr

def Status.code : Status → Nat
  | .ok => 0x00 | .merged => 0x01 | .cancelled => 0x02 | .late => 0x03 | .badCommand => 0x10
  | .badRegion => 0x11 | .noSlate => 0x12 | .permission => 0x13 | .yielded => 0x14 | .slateLost => 0x30

/-- Commands taken whose completions can still be posted: HIF_RINGn_OUT (R370, R445). -/
def Ring.out (r : Ring) : Nat := (r.taken.filter fun t => !t.lostC).length

/-- Whether ACCEPTED = COMPLETED + OUT + LOST holds for a ring, modulo 2^32 (R445). -/
def Ring.auditOk (r : Ring) : Bool := r.acc == r.cpl + BitVec.ofNat 32 r.out + r.lost

/-- The request audit of a ring; a mismatch sets RAS_AUDIT.REQUEST, logs EV-0x7051 and interrupts (R445, R447). -/
def auditRing (s : State) (r : Nat) : State :=
  if (s.ring r).auditOk then s else
  raiseRas (logEv (s.regSetF Reg.RAS_AUDIT 0 0 1) 0x7051 .action 11 r [r]) 3 0

/-- A completion ring's vector is signalled and its count since the last signal restarts (R375). -/
def signalRing (s : State) (r : Nat) : State :=
  signalVec (s.updRing r fun x => { x with unsig := 0 }) (s.regF (Reg.HIF_CQ_IRQ + 32 * r) 13 8)

/-- Signalling after a posting: at THR + 1 completions, or at once with TIME = 0 (R375). -/
def maybeSignal (s : State) (r : Nat) : State :=
  let k := Reg.HIF_CQ_IRQ + 32 * r
  if s.regF k 15 15 = 1 ∧ (s.regF k 3 0 = 0 ∨ (s.ring r).unsig ≥ s.regF k 7 4 + 1) then signalRing s r else s

/-- The 16 bytes of a completion entry (Table 13.5). -/
def completionBytes (r : Nat) (c : Completion) : List Byte :=
  bytesOfNat 2 c.cid.toNat ++ [c.status] ++ [BitVec.ofNat 8 (16 * r + b2n c.phase)] ++ bytesOfNat 2 c.sqHead.toNat ++
    [c.detail, 0] ++ bytesOfNat 4 c.result.toNat ++ bytesOfNat 4 c.time.toNat

/-- A taken command is at its end: its completion is posted at the CQ tail (R373), unless it lost it (R364). -/
def postCompletion (s : State) (h : HostRef) (st : Status) (detail : Nat := 0) (result : Nat := 0) : State :=
  let r := h.1
  let g := s.ring r.val
  match g.taken.find? (fun t => t.seq == h.2) with
  | none => s
  | some t =>
    let rest := g.taken.eraseP fun t => t.seq == h.2
    if t.lostC then s.updRing r.val fun x => { x with taken := rest } else
    let c : Completion := ⟨r, t.cid, BitVec.ofNat 8 st.code, g.phase, wd g.sqHead, BitVec.ofNat 8 (if st = .badCommand then detail else 0),
      BitVec.ofNat 32 result, s.time.setWidth 32⟩
    let s := hostWrite s (g.cqBase.toNat + 16 * g.cqTail) (completionBytes r.val c)
    let tail := g.cqTail + 1
    let wrap := decide (g.cqSize ≤ tail)
    let s := s.updRing r.val fun x => { x with taken := rest, cqTail := if wrap then 0 else tail, phase := if wrap then !g.phase else g.phase,
                                               unrel := x.unrel + 1, cpl := x.cpl + 1, unsig := x.unsig + 1 }
    let s := { s with hif := { s.hif with lastCpl := some c } }
    maybeSignal (auditRing s r.val) r.val

/-- The oldest taken command of a ring that a row's CID and opcode name and that has not started. -/
def State.takenBy (s : State) (r : RingId) (cid : Word) (op : Nat) : Option Taken :=
  (s.ring r.val).taken.find? fun t => t.cid == cid && t.op.toNat == op && !t.started

/-- A taken command. -/
def State.takenAt (s : State) (h : HostRef) : Option Taken := (s.ring h.1.val).taken.find? fun t => t.seq == h.2

/-- Update a taken command. -/
def State.updTaken (s : State) (h : HostRef) (f : Taken → Taken) : State :=
  s.updRing h.1.val fun x => { x with taken := x.taken.map fun t => if t.seq == h.2 then f t else t }

/-- Whether an UPDATE of a ring is held back by an earlier request of the ring that waits (R167). -/
def updateHeld (s : State) (r : Nat) (e : Taken) : Bool := e.op == 0x30 && s.disp.requests.any fun q => q.ring.val == r && q.waiting

/-- While role 0 is late or moving, the dispatcher takes no command, admits no request and starts no span (R439). -/
def serviceLost (s : State) : Bool := s.ras.late.getD 0 false || s.ras.moving == some 0

/-- Whether the LW6400 takes entries of a ring now, indices apart: from WM22 on (R403); in SAFE-PLAN from ring 0 alone; none once a SLEEP order runs (R348), nor while role 0 is late or moving (R439) (DEDUCED, log entry 24). -/
def takesFrom (s : State) (r : Nat) : Bool :=
  s.boot.mainOn && !s.disp.sleeping && !serviceLost s && s.power.st != .doze &&
    (s.boot.outcome == .ready || s.boot.outcome == .safeDrive || (s.boot.outcome == .safePlan && r == 0))

/-- Whether the entry at SQ head may be taken (R372). -/
def canTake (s : State) (r : Nat) : Bool :=
  let g := s.ring r
  g.en && !g.err && g.sqHead != g.sqTail && decide (g.unrel + g.out < g.cqSize) && takesFrom s r

/-- Whether a taken command may start as its own ring goes (R377): commands of one ring start in ring order, AFTER waits for every earlier one to complete, and a FENCE not yet completed holds back every later one. CANCEL, HOLD and RESUME are still taken past an UPDATE that a waiting request holds back, and past the commands behind it that it keeps from starting (R167) (DEDUCED, log entry 33). -/
def ringLets (s : State) (r : Nat) (t : Taken) : Bool :=
  let early := (s.ring r).taken.filter fun e => decide (e.seq < t.seq)
  let passed (e : Taken) : Bool := (t.op == 0x31 || t.op == 0x32 || t.op == 0x33) && early.any fun u => updateHeld s r u && decide (u.seq ≤ e.seq)
  (!t.after || early.isEmpty) && early.all fun e => e.op != 0x02 && (e.started || passed e)

/-- The dispatcher's commands, UPDATE, CANCEL, HOLD and RESUME (R165). -/
def dispatcherOp (op : Byte) : Bool := op == 0x30 || op == 0x31 || op == 0x32 || op == 0x33

/-- The commands that R165 orders between rings: the dispatcher's, and PLAN_STAGE and PLAN_SWAP (R415). -/
def orderedOp (op : Byte) : Bool := dispatcherOp op || op == 0x80 || op == 0x81

/-- Whether a command of another ring goes first: one taken that may start, of an earlier doorbell, or of the same cycle and a lower ring; or an entry of such a doorbell that is still to be taken and may be (R165, R377). Doorbells within one count of the device time base are of one cycle (DESIGN CHOICE, log entry 54). -/
def yieldsTo (s : State) (r : Nat) (t : Taken) : Bool :=
  let first (q : Nat) (time : BitVec 64) : Bool := decide (time.toNat < t.time.toNat) || (time == t.time && decide (q < r))
  orderedOp t.op && (List.range 16).any fun q => q != r &&
    ((s.ring q).taken.any (fun e => orderedOp e.op && !e.started && !updateHeld s q e && ringLets s q e && first q e.time) ||
      (canTake s q && (match (s.ring q).bells with | b :: _ => first q b.2.1 | [] => false)))

/-- Whether a taken command may start (R165, R377); the dispatcher takes none of its own while role 0 is late or moving (R439), and in DOZE no command starts: what it works on has no clock, and HBM is in self-refresh (Tables 12.1, 12.6). -/
def canStart (s : State) (r : RingId) (t : Taken) : Bool := !dozing s && ringLets s r.val t && !yieldsTo s r.val t && !(dispatcherOp t.op && serviceLost s)

/-- The command that a row names, once it may start. -/
def State.startable (s : State) (r : RingId) (cid : Word) (op : Nat) : Option Taken :=
  match s.takenBy r cid op with
  | some t => if canStart s r t then some t else none
  | none => none

/-- Bytes [i, i + n) of a taken command's entry (Table 13.8), as a number. -/
def Taken.field (t : Taken) (i n : Nat) : Nat := fieldBytes t.body i n

/-- A rectangle X0, Y0, W, H of an entry from byte i on. -/
def Taken.rectAt (t : Taken) (i : Nat) : Nat × Nat × Nat × Nat := (t.field i 2, t.field (i + 2) 2, t.field (i + 4) 2, t.field (i + 6) 2)

/-- LASTORD (R399): what became of the latest POWER_SET. -/
def setLastOrd (s : State) (v : Byte) : State := { s with side := { s.side with lastOrd := v } }

/-- Who gave an order: one, or two of one tick for the same state (R398). -/
def Order.srcs (o : Order) : List OrderSrc := o.src :: o.also.toList

/-- Whether the side lane is among those who gave an order. -/
def Order.bySide (o : Order) : Bool := o.srcs.any fun x => match x with | .side _ => true | _ => false

/-- A power order is answered: a host order posts its completion, with the state in effect as RESULT (R383). A side-lane order has had its response; LASTORD shows that it was applied, or overridden (R399) (DEDUCED, log entry 39). -/
def answerOrder (s : State) (o : Order) (st : Status) : State :=
  o.srcs.foldl (fun s x => match x with
    | .host h => postCompletion s h st 0 s.power.st.code
    | .side _ => setLastOrd s (if st = .yielded then 5 else 1)
    | .auto => s) s

/-- A later order replaces this one: YIELDED at once (R346, R383); for a side-lane order LASTORD shows it, and SMBALERT# is driven low (R399). -/
def replaceOrder (s : State) (o : Order) : State :=
  let s := answerOrder s o .yielded
  if o.bySide then alertLow (setLastOrd s 3) else s

/-- A RESET that is kept does not run after all (R346, R398). -/
def yieldReset (s : State) : State :=
  match s.side.keptReset with
  | some m => respond { s with side := { s.side with keptReset := none } } m .yielded
  | none => s

/-- Every order, waiting, running or kept, is overridden: YIELDED (R346). -/
def yieldOrders (s : State) : State :=
  let p := s.power
  let s := yieldReset { s with power := { s.power with cur := none, kept := none } }
  (p.cur.toList ++ p.kept.toList).foldl (fun s o => answerOrder s o .yielded) s

/-- Every order, waiting, running or kept, is replaced by a stop that ends in a start (DEDUCED, log entry 39). -/
def replaceOrders (s : State) : State :=
  let p := s.power
  let s := yieldReset { s with power := { s.power with cur := none, kept := none } }
  (p.cur.toList ++ p.kept.toList).foldl replaceOrder s

/-- How a taken POWER or UPDATE is noted as an order (R398). -/
def Taken.orderNote (t : Taken) : BitVec 48 × Bool × Byte × Nat := if t.op = 0x60 then (t.tick, true, 0, byteAt t.body 8) else (t.tick, true, 1, 0)

/-- A POWER or UPDATE that is refused is no order (R398). -/
def forgetOrder (s : State) (h : HostRef) : State :=
  match s.takenAt h with
  | some t => { s with side := { s.side with orders := s.side.orders.erase t.orderNote } }
  | none => s

/-- The completion of a POWER or UPDATE that is refused. -/
def refuseOrder (s : State) (h : HostRef) (st : Status) (detail : Nat := 0) : State := postCompletion (forgetOrder s h) h st detail

/-- A taken command has started. -/
def State.begin (s : State) (h : HostRef) : State := s.updTaken h fun t => { t with started := true }

end Sys2Proof.Machine
end

