-- ==== Sys2Proof/Machine/Waveform.lean ====
section
/-! DEFINITION. Waveform sets, load checks, bands, drive codes, the ledger, RECOVER and splices (Chapter 5). -/
namespace Sys2Proof.Machine
open Sys2Proof

/-! Drive codes -/

/-- The inverse of a drive code (Table 5.1). -/
def invCode (c : Nat) : Nat := match c with | 1 => 2 | 2 => 1 | 3 => 4 | 4 => 3 | 5 => 6 | 6 => 5 | c => c

/-- Frame counts per rail pair H, M, R (R153). -/
structure Counts where
  h : Int
  m : Int
  r : Int
  deriving DecidableEq, Repr

/-- A code's contribution to the counts. -/
def Counts.add (x : Counts) (code : Nat) : Counts :=
  match code with
  | 1 => { x with h := x.h + 1 } | 2 => { x with h := x.h - 1 }
  | 3 => { x with m := x.m + 1 } | 4 => { x with m := x.m - 1 }
  | 5 => { x with r := x.r + 1 } | 6 => { x with r := x.r - 1 }
  | _ => x

def Counts.plus (x y : Counts) : Counts := ⟨x.h + y.h, x.m + y.m, x.r + y.r⟩
def Counts.frames (x : Counts) : Nat := x.h.natAbs + x.m.natAbs + x.r.natAbs

/-- The code of RECOVER frame j for nulling counts (R156). -/
def recoverCode (x : Counts) (j : Nat) : Nat :=
  if j < x.h.natAbs then (if x.h > 0 then 2 else 1)
  else
    let j := j - x.h.natAbs
    if j < x.m.natAbs then (if x.m > 0 then 4 else 3)
    else
      let j := j - x.m.natAbs
      if j < x.r.natAbs then (if x.r > 0 then 6 else 5) else 0

/-- Inversion cases of the balance check and the ledger (R142, R153): parity 0, parity 1, and frame inversion. -/
inductive InvCase where
  | p0 | p1 | fr
  deriving DecidableEq, Repr

/-- Whether an INV segment delivers the inverse in frame k (R142). -/
def InvCase.inverts (c : InvCase) (k : Nat) : Bool := match c with | .p0 => false | .p1 => true | .fr => k % 2 == 1

/-! The waveform set -/

def setLength (ws : List Word) : Nat := dwordAt ws 2
def setNStates (ws : List Word) : Nat := wordAt ws 4 % 64
def setModeMask (ws : List Word) : Nat := wordAt ws 5
def setNTb (ws : List Word) : Nat := wordAt ws 6 % 32
def setNAb (ws : List Word) : Nat := wordAt ws 7 % 8
def setRefState (ws : List Word) : Nat := wordAt ws 29 % 32
def setRail (ws : List Word) (k : Nat) : Nat := wordAt ws (26 + k)

/-- A waveform: the words its offsets count in, and its own offset (R133). -/
structure Wf where
  ws  : List Word
  off : Nat
  deriving DecidableEq, Repr

def Wf.nframes (w : Wf) : Nat := wordAt w.ws w.off
def Wf.nmile (w : Wf) : Nat := wordAt w.ws (w.off + 1) % 32
def Wf.ecoef (w : Wf) : Nat := wordAt w.ws (w.off + 2)
def Wf.pairIdx (w : Wf) : Nat := dwordAt w.ws (w.off + 4)
def Wf.splice (w : Wf) : Nat := dwordAt w.ws (w.off + 6)
def Wf.mile (w : Wf) (i : Nat) : Nat := wordAt w.ws (w.off + 8 + 514 * i)
/-- Listed milestones, in order. -/
def Wf.miles (w : Wf) : List Nat := (List.range w.nmile).map w.mile

/-- A state packed two to a word from a word offset on (R134). -/
def packedState (ws : List Word) (start x : Nat) : Nat :=
  let v := wordAt ws (start + x / 2)
  if x % 2 = 0 then bitsN v 4 0 else bitsN v 12 8

def Wf.mileState (w : Wf) (i o n : Nat) : Nat := packedState w.ws (w.off + 8 + 514 * i + 2) (32 * o + n)
def Wf.toMask (w : Wf) : Nat := if w.splice = 0 then 0 else wordAt w.ws w.splice
def Wf.spliceIn (w : Wf) (i o n : Nat) : Nat := packedState w.ws (w.splice + 2 + 512 * i) (32 * o + n)
def Wf.pairOff (w : Wf) (o n : Nat) : Nat := dwordAt w.ws (w.pairIdx + 2 * (32 * o + n))

/-- A segment of a pair: code, INV, length (Table 5.6). -/
structure Seg where
  code : Nat
  inv  : Bool
  len  : Nat
  deriving DecidableEq, Repr

def segOf (v : Nat) : Seg := ⟨bitsN v 15 13, bitN v 12, bitsN v 11 0⟩
/-- The pair header word at an offset. -/
def pairHead (ws : List Word) (p : Nat) : Nat := wordAt ws p
def pairCount (h : Nat) : Nat := bitsN h 15 10
def pairStretch (h : Nat) : Nat := bitsN h 9 4
def pairKind (h : Nat) : Nat := bitsN h 3 2
def pairSegs (ws : List Word) (p : Nat) : List Seg := (List.range (pairCount (pairHead ws p))).map fun i => segOf (wordAt ws (p + 1 + i))

/-- The slack segment of a trio (Table 5.8). -/
def slackOf (kind st : Nat) : Nat := if kind = 1 then st + 2 else st - 1

/-- The segments of a pair with the lengths of trim class c (R144). -/
def trimmedSegs (w : Wf) (o n c : Nat) : List Seg :=
  let p := w.pairOff o n
  let h := pairHead w.ws p
  let segs := pairSegs w.ws p
  if pairKind h = 0 then segs else
  let t : Int := (c : Int) - 8
  let st := pairStretch h
  let sl := slackOf (pairKind h) st
  (segs.zipIdx).map fun (g, i) =>
    if i = st ∨ i = st + 1 then { g with len := (g.len + t).toNat }
    else if i = sl then { g with len := (g.len - 2 * t).toNat } else g

/-- The segment that frame k of a pair falls in, counted from frame f. -/
def segAt : List Seg → Nat → Nat → Option Seg
  | [], _, _ => none
  | g :: r, f, k => if k < f + g.len then some g else segAt r (f + g.len) k

/-- The code of pair (o, n) at frame k, trim class c, inverted or not (R142). -/
def codeAtP (w : Wf) (o n c k : Nat) (inverts : Bool) : Nat :=
  match segAt (trimmedSegs w o n c) 0 k with
  | some g => if g.inv && inverts then invCode g.code else g.code
  | none => 0

def codeAt (w : Wf) (o n c k : Nat) (cs : InvCase) : Nat := codeAtP w o n c k (cs.inverts k)

/-- The waveform of a mode for a temperature and an age band (R131), with MODE_LOAD payloads in place of the set's mode (R141). -/
def wfAt (r : ResSet) (mode tb ab : Nat) : Option Wf :=
  match r.modes.find? (·.1 == mode) with
  | some (_, pl) =>
    let e := dwordAt pl (8 * tb + 2 * ab)
    if e = 0 then none else some ⟨pl, e⟩
  | none =>
    let d := dwordAt r.words (32 + 2 * mode)
    if d = 0 then none else
    let e := dwordAt r.words (d + 8 * tb + 2 * ab)
    if e = 0 then none else some ⟨r.words, e⟩

/-- Whether a set holds a mode, by its MODEMASK or a MODE_LOAD. -/
def holdsMode (r : ResSet) (mode : Nat) : Bool := bitN (setModeMask r.words) mode || r.modes.any (·.1 == mode)

/-! Load checks -/

/-- A failed load check: code, mode, bands and pair (Tables 5.7 and 5.20). -/
structure LoadFault where
  code : Nat
  mode : Nat
  tb   : Nat
  ab   : Nat
  pair : Nat
  deriving DecidableEq, Repr

/-- What the checks of a set or a MODE_LOAD payload examine: words, limits of offsets, header, and the modes with their block offsets (R141). `lo` and `hi` bound an offset; `fin` is the trailer's first word. -/
structure LoadCtx where
  ws    : List Word
  lo    : Nat
  fin   : Nat
  head  : List Word
  mask  : Nat
  modes : List (Nat × Nat)
  deriving DecidableEq, Repr

def LoadCtx.inRange (x : LoadCtx) (o : Nat) : Bool := x.lo ≤ o && o < x.fin

/-- The waveform entries of the modes' blocks: mode, tb, ab, offset. -/
def LoadCtx.entries (x : LoadCtx) : List (Nat × Nat × Nat × Nat) :=
  x.modes.flatMap fun (m, d) =>
    if d = 0 ∨ !x.inRange d then [] else
    (List.range 16).flatMap fun tb => (List.range 4).filterMap fun ab =>
      let a := d + 8 * tb + 2 * ab
      if a + 1 < x.fin then some (m, tb, ab, dwordAt x.ws a) else none

/-- Entries of a payload, whose block is its first 128 words. -/
def payloadEntries (mode : Nat) (ws : List Word) : List (Nat × Nat × Nat × Nat) :=
  (List.range 16).flatMap fun tb => (List.range 4).map fun ab => (mode, tb, ab, dwordAt ws (8 * tb + 2 * ab))

/-- The words of a packed table that lie before the trailer have zero in their reserved bits. -/
def packedRsvOk (ws : List Word) (fin start : Nat) : Bool :=
  (List.range 512).all fun i => fin ≤ start + i || (bitsN (wordAt ws (start + i)) 7 5 == 0 && bitsN (wordAt ws (start + i)) 15 13 == 0)

/-- A word that a check reads before the trailer is zero in a range of bits. -/
def rsvWord (ws : List Word) (fin a hi lo : Nat) : Bool := fin ≤ a || bitsN (wordAt ws a) hi lo == 0

/-- The reserved fields of one waveform and what it reaches (check 0x03). -/
def wfReservedOk (x : LoadCtx) (e : Nat) : Option Nat :=
  let w : Wf := ⟨x.ws, e⟩
  if !(rsvWord x.ws x.fin (e + 1) 15 5 && rsvWord x.ws x.fin (e + 3) 15 0) then some 0 else
  let nm := if e + 1 < x.fin then w.nmile else 0
  let milesOk := (List.range nm).all fun i => rsvWord x.ws x.fin (e + 9 + 514 * i) 15 0 && packedRsvOk x.ws x.fin (e + 10 + 514 * i)
  let sp := if e + 7 < x.fin then w.splice else 0
  let spOk := sp == 0 || !x.inRange sp || (rsvWord x.ws x.fin (sp + 1) 15 0 && (List.range nm).all fun i => packedRsvOk x.ws x.fin (sp + 2 + 512 * i))
  if !(milesOk && spOk) then some 0 else
  let pi := if e + 5 < x.fin then w.pairIdx else 0
  if pi = 0 ∨ !x.inRange pi then none else
  (List.range 1024).findSome? fun p =>
    if x.fin ≤ pi + 2 * p + 1 then none else
    let d := dwordAt x.ws (pi + 2 * p)
    if d ≠ 0 ∧ x.inRange d ∧ bitsN (wordAt x.ws d) 1 0 ≠ 0 then some p else none

/-- The header's reserved fields. -/
def headReservedOk (ws : List Word) : Bool :=
  bitsN (wordAt ws 4) 15 6 == 0 && bitsN (wordAt ws 6) 15 5 == 0 && bitsN (wordAt ws 7) 15 3 == 0 && bitsN (wordAt ws 29) 15 5 == 0 &&
  wordAt ws 30 == 0 && wordAt ws 31 == 0

/-- Strictly increasing. -/
def strictUp : List Int → Bool
  | [] => true
  | [_] => true
  | a :: b :: r => decide (a < b) && strictUp (b :: r)

/-- The header fields of check 0x04. -/
def headFieldsOk (ws : List Word) : Bool :=
  let nt := setNTb ws
  let na := setNAb ws
  2 ≤ setNStates ws && setNStates ws ≤ 32 && 1 ≤ nt && nt ≤ 16 && 1 ≤ na && na ≤ 4 &&
  strictUp ((List.range (nt - 1)).map fun b => toSigned 16 (wordAt ws (8 + b))) &&
  (List.range 15).all (fun b => b + 1 < nt || wordAt ws (8 + b) == 0x7FFF) &&
  strictUp ((List.range (na - 1)).map fun a => (wordAt ws (23 + a) : Int)) &&
  (List.range 3).all (fun a => a + 1 < na || wordAt ws (23 + a) == 0xFFFF) &&
  setRefState ws < setNStates ws

/-- A structure of `n` words at an offset lies within the set and before its trailer. -/
def LoadCtx.placed (x : LoadCtx) (o n : Nat) : Bool := x.inRange o && o + n ≤ x.fin

/-- Check 0x06 on one waveform: its structures, its pair index and its pair data; answers the failing pair. -/
def wfOffsets (x : LoadCtx) (ns e : Nat) : Option Nat :=
  let w : Wf := ⟨x.ws, e⟩
  if !x.placed e 8 || !x.placed e (8 + 514 * w.nmile) || !x.placed w.pairIdx 2048 ||
      !(w.splice == 0 || x.placed w.splice (2 + 512 * w.nmile)) then some 0 else
  (List.range 1024).find? fun p =>
    let d := w.pairOff (p / 32) (p % 32)
    if p / 32 < ns ∧ p % 32 < ns then !(x.placed d 1 && x.placed d (1 + pairCount (pairHead x.ws d))) else d != 0

/-- Check 0x07. -/
def wfMilesOk (w : Wf) : Bool :=
  1 ≤ w.nframes && w.nframes ≤ 1020 && w.nmile ≤ 16 && strictUp ((0 :: w.miles).map Int.ofNat) && w.miles.all (· < w.nframes)

/-- Check 0x08 on one pair. -/
def pairLensOk (w : Wf) (p : Nat) : Bool :=
  let segs := pairSegs w.ws p
  1 ≤ segs.length && segs.all (·.len ≠ 0) && (segs.map (·.len)).sum == w.nframes

/-- Check 0x09 on one pair (R143). -/
def pairStretchOk (w : Wf) (p : Nat) : Bool :=
  let h := pairHead w.ws p
  let segs := pairSegs w.ws p
  let st := pairStretch h
  match pairKind h with
  | 0 => st == 0
  | 3 => false
  | k =>
    let sl := if k = 1 then st + 2 else st - 1
    if st + 1 ≥ segs.length ∨ sl ≥ segs.length ∨ (k = 2 ∧ st = 0) then false else
    let g (i : Nat) : Seg := segs.getD i ⟨0, false, 0⟩
    let a := min st sl
    let from_ := ((segs.take a).map (·.len)).sum
    let upto := from_ + (g st).len + (g (st + 1)).len + (g sl).len
    1 ≤ (g st).code && (g st).code ≤ 6 && invCode (g st).code == (g (st + 1)).code && !(g st).inv && !(g (st + 1)).inv &&
    (g sl).code == 0 && 9 ≤ (g st).len && 9 ≤ (g (st + 1)).len && 15 ≤ (g sl).len &&
    w.miles.all fun b => b ≤ from_ || upto ≤ b

/-- The ledger of a pair over frames b1 to b2 − 1 (R153). -/
def ledger (w : Wf) (o n c b1 b2 : Nat) (cs : InvCase) : Counts :=
  (List.range (b2 - b1)).foldl (fun x i => x.add (codeAt w o n c (b1 + i) cs)) ⟨0, 0, 0⟩

/-- The impulse of counts in tenths of a V·frame, at the rails a header declares. -/
def impulse (head : List Word) (x : Counts) : Int := x.h * setRail head 0 + x.m * setRail head 1 + x.r * setRail head 2

/-- Check 0x0A on one pair (R142): class 8 keeps the nominal lengths. -/
def pairBalanced (head : List Word) (w : Wf) (o n : Nat) : Bool :=
  [InvCase.p0, .p1, .fr].all fun cs => (w.miles ++ [w.nframes]).all fun b => (impulse head (ledger w o n 8 0 b cs)).natAbs ≤ 2

/-- Check 0x0B on one waveform: its milestone and splice-in states. -/
def wfStatesOk (w : Wf) (ns : Nat) : Option Nat :=
  (List.range 1024).find? fun x =>
    let o := x / 32
    let n := x % 32
    let ok (v : Nat) : Bool := if o < ns ∧ n < ns then v < ns else v == 0
    !((List.range w.nmile).all fun i => ok (w.mileState i o n) && (w.splice == 0 || ok (w.spliceIn i o n)))

/-- The first failing pair of a waveform under a check of pairs. -/
def badPair (_w : Wf) (ns : Nat) (f : Nat → Nat → Bool) : Option Nat :=
  (List.range 1024).find? fun p => decide (p / 32 < ns) && decide (p % 32 < ns) && !f (p / 32) (p % 32)

/-- The checks 0x06 to 0x0C on the waveforms named by entries, in the order of Table 5.7. -/
def wfChecks (x : LoadCtx) (entries : List (Nat × Nat × Nat × Nat)) : Option LoadFault :=
  let ns := setNStates x.head
  let nt := setNTb x.head
  let na := setNAb x.head
  let used := entries.filter fun e => bitN x.mask e.1 && decide (e.2.1 < nt) && decide (e.2.2.1 < na)
  let wf (e : Nat × Nat × Nat × Nat) : Wf := ⟨x.ws, e.2.2.2⟩
  let run (code : Nat) (f : Wf → Option Nat) : Option LoadFault :=
    used.findSome? fun e => (f (wf e)).map fun p => ⟨code, e.1, e.2.1, e.2.2.1, p⟩
  let off6 := entries.findSome? fun e =>
    let here (p : Nat) : LoadFault := ⟨6, e.1, e.2.1, e.2.2.1, p⟩
    if bitN x.mask e.1 && decide (e.2.1 < nt) && decide (e.2.2.1 < na) then (wfOffsets x ns e.2.2.2).map here
    else if e.2.2.2 ≠ 0 then some (here 0) else none
  off6
  <|> run 7 (fun w => if wfMilesOk w then none else some 0)
  <|> run 8 (fun w => badPair w ns fun o n => pairLensOk w (w.pairOff o n))
  <|> run 9 (fun w => badPair w ns fun o n => pairStretchOk w (w.pairOff o n))
  <|> run 10 (fun w => badPair w ns fun o n => pairBalanced x.head w o n)
  <|> run 11 (fun w => wfStatesOk w ns)
  <|> run 12 (fun w => if w.toMask &&& (0xFFFF - x.mask) = 0 ∧ bitsN w.toMask 15 14 = 0 then none else some 0)

/-- The words of the resident area in use (WF_RES_USED). -/
def residentUsed (s : State) : Nat :=
  (s.sets.filterMap id).foldl (fun a r => a + r.words.length + (r.modes.map (·.2.length)).sum) 0

/-- The size of the resident waveform area in words. -/
def residentArea : Nat := 0x1800000

/-- The load checks of a set of supplied words, `free` words of the resident area being free (Table 5.7). -/
def checkSet (ws : List Word) (free : Nat) : Option LoadFault :=
  let len := setLength ws
  let fail (c : Nat) : Option LoadFault := some ⟨c, 0, 0, 0, 0⟩
  if wordAt ws 0 ≠ 0x5753 ∨ wordAt ws 1 ≠ 0x0100 then fail 1
  else if len < 96 ∨ len > 0x400000 ∨ len ≠ ws.length ∨ crc32Words (ws.take (len - 2)) ≠ dwordAt ws (len - 2) then fail 2
  else
    let dir := (List.range 16).map fun m => (m, dwordAt ws (32 + 2 * m))
    let x : LoadCtx := ⟨ws, 64, len - 2, ws, setModeMask ws, dir⟩
    let reach := x.entries.filter fun e => e.2.2.2 ≠ 0 ∧ x.inRange e.2.2.2
    if !headReservedOk ws then fail 3
    else match reach.findSome? fun e => (wfReservedOk x e.2.2.2).map fun p => (⟨3, e.1, e.2.1, e.2.2.1, p⟩ : LoadFault) with
      | some f => some f
      | none =>
        if !headFieldsOk ws then fail 4
        else if !bitN x.mask 0 ∨ bitsN x.mask 15 14 ≠ 0 then fail 5
        else match dir.find? fun e => if bitN x.mask e.1 then !x.placed e.2 128 else e.2 != 0 with
          | some e => some ⟨6, e.1, 0, 0, 0⟩
          | none =>
            wfChecks x x.entries
            <|> (if (List.range 3).all fun k => 25 ≤ setRail ws k && setRail ws k ≤ 160 then none else fail 13)
            <|> (if len ≤ free then none else fail 14)

/-- The load checks of a MODE_LOAD payload against the set it joins: offsets count from the payload's first word, where the mode block stands (R141). -/
def checkMode (r : ResSet) (mode : Nat) (ws : List Word) (free : Nat) : Option LoadFault :=
  let mask := (r.modes.foldl (fun m e => m ||| 2 ^ e.1) (setModeMask r.words)) ||| 2 ^ mode
  let x : LoadCtx := ⟨ws, 128, ws.length, r.words, mask, []⟩
  let es := payloadEntries mode ws
  if ws.length < 128 then some ⟨6, mode, 0, 0, 0⟩ else
  match (es.filter fun e => e.2.2.2 ≠ 0 ∧ x.inRange e.2.2.2).findSome? fun e => (wfReservedOk x e.2.2.2).map fun p => (⟨3, e.1, e.2.1, e.2.2.1, p⟩ : LoadFault) with
  | some f => some f
  | none => wfChecks x es <|> (if ws.length ≤ free then none else some ⟨14, mode, 0, 0, 0⟩)

/-! Runs -/

/-- A run of a region or a record: its mode, bands, inversion (0 FRAME, 1 LINE, 2 DOT) and whether it is chained (R162). -/
structure Run where
  mode    : Nat
  tb      : Nat
  ab      : Nat
  inv     : Nat
  chained : Bool
  deriving DecidableEq, Repr

/-- The CLEAR part of a chained run. -/
def Run.clear (x : Run) (r : ResSet) : Option Wf := if x.chained then wfAt r 0 x.tb x.ab else none
/-- The mode's own part. -/
def Run.main (x : Run) (r : ResSet) : Option Wf := wfAt r x.mode x.tb x.ab
def Run.clearFrames (x : Run) (r : ResSet) : Nat := match x.clear r with | some w => w.nframes | none => 0
/-- Frames of a run (R162). -/
def Run.frames (x : Run) (r : ResSet) : Nat := x.clearFrames r + match x.main r with | some w => w.nframes | none => 0

/-- The part of a run that frame or boundary k lies in: its waveform, pair, and the index within it. -/
def Run.part (x : Run) (r : ResSet) (k o n : Nat) : Option (Wf × Nat × Nat × Nat) :=
  let ref := setRefState r.words
  if k < x.clearFrames r then (x.clear r).map fun w => (w, o, ref, k)
  else (x.main r).map fun w => (w, if x.chained then ref else o, n, k - x.clearFrames r)

/-- The code delivered in frame k to a pixel of pair (o, n), class c and spatial parity `par` (R142, R147): under FRAME the parity is that of the part's own frame index. -/
def Run.code (x : Run) (r : ResSet) (k o n c : Nat) (par : Bool) : Nat :=
  let ns := setNStates r.words
  if o ≥ ns ∨ n ≥ ns then 0 else
  match x.part r k o n with
  | some (w, o, n, f) => codeAtP w o n c f (if x.inv = 0 then f % 2 == 1 else par)
  | none => 0

/-- Milestones of a run, boundary 0 and its end among them. -/
def Run.miles (x : Run) (r : ResSet) : List Nat :=
  let c := x.clearFrames r
  [0] ++ (match x.clear r with | some w => w.miles ++ [w.nframes] | none => []) ++
    (match x.main r with | some w => w.miles.map (c + ·) ++ [c + w.nframes] | none => [])

/-- The greatest listed milestone, boundary 0 or end of a CLEAR part at or below a boundary; never NFRAMES of the run (R155, R162). -/
def Run.lastMile (x : Run) (r : ResSet) (b : Nat) : Nat := ((x.miles r).filter fun m => m ≤ b && m != x.frames r).foldl max 0
/-- The first milestone above a boundary. -/
def Run.nextMile (x : Run) (r : ResSet) (b : Nat) : Nat := (minBy id ((x.miles r).filter (b < ·))).getD (x.frames r)

/-- The listed index of a boundary in a waveform. -/
def Wf.listed (w : Wf) (b : Nat) : Option Nat := (List.range w.nmile).find? fun i => w.mile i == b

/-- The state of pair (o, n) at milestone m of a run (R133, R134, R162). -/
def Run.stateAt (x : Run) (r : ResSet) (m o n : Nat) : Nat :=
  if m = 0 then o else if m = x.frames r then n else if x.chained ∧ m = x.clearFrames r then setRefState r.words else
  match x.part r m o n with
  | some (w, o, n, f) => match w.listed f with | some i => w.mileState i o n | none => o
  | none => o

/-- The splice-in state at milestone m into mode b; none where a chained run is needed (R160). -/
def Run.spliceAt (x : Run) (r : ResSet) (m o n b : Nat) : Option Nat :=
  if m = 0 then some o else if m = x.frames r then some n else if x.chained ∧ m = x.clearFrames r then some (setRefState r.words) else
  match x.part r m o n with
  | some (w, o, n, f) => match w.listed f with
    | some i => if bitN w.toMask b then some (w.spliceIn i o n) else none
    | none => none
  | none => none

/-- Whether a splice at milestone m of a run into mode b needs a chained run, for every pixel alike (R160). -/
def Run.chains (x : Run) (r : ResSet) (m b : Nat) : Bool := (x.spliceAt r m 0 0 b).isNone

/-- The ledger of a run over frames b1 to b2 − 1. -/
def Run.ledger (x : Run) (r : ResSet) (b1 b2 o n c : Nat) (par : Bool) : Counts :=
  (List.range (b2 - b1)).foldl (fun a i => a.add (x.code r (b1 + i) o n c par)) ⟨0, 0, 0⟩

/-- The parity of the pixel at (x, y) under an inversion pattern, FRAME apart (R146). -/
def spatialPar (inv x y : Nat) : Bool := if inv = 1 then y % 2 == 1 else if inv = 2 then (x + y) % 2 == 1 else false

/-- The parities a course can give a pixel (R153): both under LINE and DOT. -/
def parCases (inv : Nat) : List Bool := if inv = 0 then [false] else [false, true]

/-- What a RECOVER run nulls: the interrupted run, its frame k and last line L (none: no line), and the RECOVER frames that had been received before (R155, R158): `pre` full frames everywhere and one more on lines up to `preLine`. -/
structure RecBase where
  run     : Run
  k       : Nat
  line    : Option Nat
  pre     : Nat
  preLine : Option Nat
  deriving DecidableEq, Repr

def lineIn (y : Nat) (l : Option Nat) : Bool := match l with | some v => y ≤ v | none => false

/-- The boundary of a line of the interrupted run (R155). -/
def RecBase.bound (b : RecBase) (y : Nat) : Nat := if lineIn y b.line then b.k + 1 else b.k

/-- Nulling counts of a pixel from the interrupted run alone (R156). -/
def RecBase.counts0 (b : RecBase) (r : ResSet) (y o n c : Nat) (par : Bool) : Counts :=
  b.run.ledger r (b.run.lastMile r (b.bound y)) (b.bound y) o n c par

/-- Nulling counts of a pixel, RECOVER frames received before included (R158). -/
def RecBase.counts (b : RecBase) (r : ResSet) (y o n c : Nat) (par : Bool) : Counts :=
  let x := b.counts0 r y o n c par
  let j := b.pre + b2n (lineIn y b.preLine)
  (List.range j).foldl (fun a i => a.add (recoverCode x i)) x

/-- One line of each group of lines of a region that receives the same RECOVER (R156). -/
def RecBase.groupLines (b : RecBase) (y h : Nat) : List Nat :=
  ([y] ++ (b.line.map (· + 1)).toList ++ (b.preLine.map (· + 1)).toList).filter fun v => y ≤ v && v < y + h

/-- R of R156: the frames of a RECOVER run over a region of lines y to y + h − 1. -/
def RecBase.frames (b : RecBase) (r : ResSet) (y h : Nat) : Nat :=
  let ns := setNStates r.words
  (b.groupLines y h).foldl (fun m v => (parCases b.run.inv).foldl (fun m par => (List.range 16).foldl (fun m c =>
    (List.range ns).foldl (fun m o => (List.range ns).foldl (fun m n => max m (b.counts r v o n c par).frames) m) m) m) m) 0

/-! Bands -/

/-- Resident set of a port's slate (DEDUCED, log entry 48). -/
def State.setOf (s : State) (p : Nat) : Option ResSet :=
  match (s.port p).set with
  | some i => s.sets.getD i none
  | none => none

/-- SYS_TOFSn as it is taken: −160 to +160, outside as the nearer limit (Table 15.11) (DEDUCED, log entry 48). -/
def userOffset (s : State) (p : Nat) : Int := let v := toSigned 16 (s.reg (Reg.SYS_TOFS + p)); if v < -160 then -160 else if 160 < v then 160 else v

/-- SYS_TOFSn as the user layer holds it: the value in effect (R423). -/
def offsetWord (s : State) (p : Nat) : Word := wd (ofSigned 16 (userOffset s p))

/-- SYS_LGAIN as it is taken: 0x0040 to 0x0400, outside as the nearer limit (Table 15.11). -/
def lightGain (s : State) : Nat := min 0x400 (max 0x40 (s.reg Reg.SYS_LGAIN))

/-- Whether a port's latest reading is stale, or there is none since its link trained (R139): its age against WF_TSTALE as it is now; 0: never stale. -/
def tempStale (s : State) (p : Nat) : Bool :=
  let t := s.port p
  let sec := s.reg Reg.WF_TSTALE
  !t.tempOk || (sec != 0 && decide (t.tempAt.toNat + 100000000 * sec ≤ s.time.toNat))

/-- The temperature a band is chosen by (R138, R139): the slate's reading with its user offset, or WF_TDEFAULT where the reading is stale or missing. -/
def bandTemp (s : State) (p : Nat) : Int :=
  if !tempStale s p then toSigned 16 (s.reg (Reg.SL_TEMP + 32 * p)) + userOffset s p
  else toSigned 16 (s.reg Reg.WF_TDEFAULT)

/-- The temperature band (R138). -/
def tempBand (ws : List Word) (t : Int) : Nat :=
  ((List.range (setNTb ws - 1)).find? fun b => t < toSigned 16 (wordAt ws (8 + b))).getD (setNTb ws - 1)

/-- The highest update count among the wear blocks of a rectangle (R140, R310). -/
def wearMax (sl : Slate) (r : Rect) : Nat :=
  let cols := divCeil sl.width 64
  ((List.range (divCeil (r.y + r.h) 64)).filter (r.y / 64 ≤ ·)).foldl (fun m by_ =>
    ((List.range (divCeil (r.x + r.w) 64)).filter (r.x / 64 ≤ ·)).foldl (fun m bx => max m (sl.blocks.getD (by_ * cols + bx) 0)) m) 0

/-- The age band (R140). -/
def ageBand (ws : List Word) (sl : Slate) (r : Rect) : Nat :=
  let a := if sl.rated = 0 then 0 else 1000 * wearMax sl r / sl.rated
  ((List.range (setNAb ws - 1)).find? fun b => a < wordAt ws (23 + b)).getD (setNAb ws - 1)

/-- A reading is found stale: STALE_T sets, and EV-0xB020 is logged once for the slate until a fresh reading (R139). -/
def markStale (s : State) (p : Nat) : State :=
  let t := s.port p
  let who := match t.slate with | some sl => sl.serial | none => 0
  let s := s.updPort p fun t => { t with staleT := true, staleEv := some who }
  if t.staleEv = some who then s else logEv s 0xB020 .note 3 p

/-- The age of a port's latest reading reaches WF_TSTALE; with WF_TSTALE = 0 no reading is ever stale (R139). A port with no reading, or one not yet that old, is left (DESIGN CHOICE, log entry 2). -/
def execTemperatureReadingStale (p : PortId) (s : State) : Out :=
  if (s.port p.val).tempOk && tempStale s p.val then ok (markStale s p.val) else ok s

/-- Bands chosen for a rectangle of a port at a region's start or splice (R138 to R140), shown in WF_SLATEn; a reading that is used is not stale (R139). -/
def chooseBands (s : State) (p : Nat) (r : Rect) : State × Nat × Nat :=
  match s.setOf p, (s.port p).slate with
  | some st, some sl =>
    let s := if tempStale s p then markStale s p else s.updPort p fun t => { t with staleT := false }
    let tb := tempBand st.words (bandTemp s p)
    let ab := ageBand st.words sl r
    (s.updPort p fun t => { t with tb := tb, ab := ab }, tb, ab)
  | _, _ => (s, 0, 0)

/-- The words of the resident area free for a mode of a port's own set, beside its words and its other modes, once its present copy is left (R141 check 0x0E). -/
def freeForMode (s : State) (p : Nat) (r : ResSet) (m : Nat) : Nat :=
  let s := { s with sets := s.sets.zipIdx.map fun (x, i) => if s.ports.zipIdx.any (fun (t, q) => q != p && t.set == some i) then x else none }
  residentArea - residentUsed s - r.words.length - ((r.modes.filter (·.1 != m)).map (·.2.length)).sum

/-- The inversion pattern of a course (WF_INV). -/
def State.invOf (s : State) (co : Nat) : Nat := s.regF Reg.WF_INV (2 * co + 1) (2 * co)

/-! Residency -/

/-- Whether a slate's rails match its set (R129): both rails of each pair at the magnitudes the set declares. -/
def railsMatch (s : State) (co : Nat) (ws : List Word) : Bool :=
  let k := 16 * co
  s.regF (Reg.RL_CO_VSH + k) 7 0 == setRail ws 0 && s.regF (Reg.RL_CO_VSM + k) 7 0 == setRail ws 1 && s.regF (Reg.RL_CO_VSR + k) 7 0 == setRail ws 2

/-- Whether the slate on a port has a resident set that matches its rails (WF_SLATEn.VALID). -/
def setValid (s : State) (p : Nat) : Bool :=
  match s.setOf p with
  | some r => (s.port p).slate.isSome && railsMatch s (s.courseOf p) r.words
  | none => false

/-- A failed load recorded in WF_FAULT with EV-0xB010 (R141); code 0x0E also logs EV-0xB011. -/
def loadFailed (s : State) (p : Nat) (f : LoadFault) : State :=
  let v := f.code + (f.ab <<< 22) + (f.tb <<< 24) + (f.mode <<< 28) + (f.pair <<< 32) + (p <<< 48)
  let s := logEv (s.regSet Reg.WF_FAULT v 4) 0xB010 .action 3 p
  if f.code = 14 then logEv s 0xB011 .action 3 p else s

/-- Sets no port uses any more leave the resident area. -/
def dropUnused (s : State) : State :=
  { s with sets := s.sets.zipIdx.map fun (x, i) => if s.ports.any (fun p => p.set == some i) then x else none }

/-- A port's slate takes a resident set; sets that are identical word for word share one copy, and a slate with customer modes has a copy of its own; those are the modes of MODE_LOAD and of the user layer, and not modes 4 to 13 that a record's own set holds (R141) (DESIGN CHOICE, log entry 53). -/
def makeResident (s : State) (p : Nat) (r : ResSet) : State :=
  let s := dropUnused (s.updPort p fun t => { t with set := none })
  let i := match (if r.modes.isEmpty then s.sets.findIdx? (· == some r) else none) with
    | some i => i
    | none => (s.sets.findIdx? (· == none)).getD 0
  { s with sets := s.sets.set i (some r) }.updPort p fun t => { t with set := some i }

/-- The modes of a user layer that a set takes, each checked against the set with all of them in place, since a mode may name one loaded again after it (R136, R141); one that fails is recorded and left out. -/
def takeModes (s : State) (p : Nat) (words : List Word) (l : List (Nat × List Word)) : State × ResSet :=
  l.foldl (fun a e => match checkMode ⟨words, l⟩ e.1 e.2 (freeForMode a.1 p a.2 e.1) with
    | none => (a.1, { a.2 with modes := a.2.modes ++ [e] })
    | some f => (loadFailed a.1 p f, a.2)) (s, ⟨words, []⟩)

end Sys2Proof.Machine
end

