-- ==== Sys2Proof/Machine/Slates.lean ====
section
/-! DEFINITION. What the device keeps of an attached slate: trim classes (R143, R144), wear counters and life (R310 to R313), slate interrupts (R315), and the queue of state-store writes (R54, R58). -/
namespace Sys2Proof.Machine
open Sys2Proof

/-- A slate-link interrupt, cause 0x16, with its reason and port (R315). -/
def raiseSl (s : State) (reason p : Nat) : State := raiseClass s 0x16 (reason * 4096 + p)

/-! Trim -/

/-- The 4-bit signed value of pixel index i of an underlay or overlay (R306): the even column in bits [3:0]. -/
def nibbleAt (bs : List Byte) (i : Nat) : Int := toSigned 4 (if i % 2 = 0 then byteAt bs (i / 2) % 16 else byteAt bs (i / 2) / 16)

/-- The trim class of pixel (x, y): TRIMC of its underlay and overlay. -/
def trimAt (sl : Slate) (x y : Nat) : Nat :=
  let i := y * sl.width + x
  let v := nibbleAt sl.underlay i + nibbleAt sl.overlay i
  ((if v < -8 then -8 else if v > 7 then 7 else v) + 8).toNat

/-- The user layer of the slate on a port: its own, or an empty one where the port's is for another serial; TOFS as it stands (R420, R421) (DESIGN CHOICE, log entry 30). -/
def ownLayer (s : State) (p : Nat) (serial : BitVec 64) : Layer :=
  let l := s.boot.layers.getD p Layer.empty
  if l.serial = serial then l else { Layer.empty with serial := serial, tofs := offsetWord s p }

/-- The user layer of a port changed. -/
def updLayer (s : State) (p : Nat) (f : Layer → Layer) : State :=
  match (s.port p).slate with
  | none => s
  | some sl => { s with boot := { s.boot with layers := s.boot.layers.set p (f (ownLayer s p sl.serial)) } }

/-- The entry of the slate on a port takes the offset that SYS_TOFSn holds (R420, R423). -/
def layerOffset (s : State) (p : Nat) : State := updLayer s p fun l => { l with tofs := offsetWord s p }

/-- SYS_TOFSn as a slate of a serial finds it: its own entry's offset; 0, the factory value, where the entry is another slate's; and what the register holds, which its entry takes, where there is no entry (R420, R421) (DESIGN CHOICE, log entry 30). -/
def takeOffset (s : State) (p : Nat) (serial : BitVec 64) : State :=
  let l := s.boot.layers.getD p Layer.empty
  if l.serial = serial then s.regSet (Reg.SYS_TOFS + p) l.tofs.toNat
  else if l.serial ≠ 0 then s.regSet (Reg.SYS_TOFS + p) 0
  else if s.reg (Reg.SYS_TOFS + p) = 0 then s else layerOffset s p

/-- A pixel state word with the trim class its slate's layers give it now (R381). -/
def withTrim (s : State) (p x y v : Nat) : Nat :=
  match (s.port p).slate with
  | some sl => setBitsN v 13 10 (trimAt sl x y)
  | none => v

/-! Wear and life -/

/-- The life of a slate in per-mille (R313). -/
def slateLife (sl : Slate) : Nat := if sl.rated = 0 then 0 else 1000 * sl.blocks.foldl max 0 / sl.rated

/-- SL_LIFEn and the thresholds of R313, each logged once. -/
def noteLife (s : State) (p : Nat) : State :=
  match (s.port p).slate with
  | none => s
  | some sl =>
    let l := slateLife sl
    let s := s.regSet (Reg.SL_LIFE + 32 * p) (satTo 0xFFFF l)
    let s := if 900 ≤ l ∧ !(s.port p).lifeWarn then
      raiseSl (logEv (s.updPort p fun t => { t with lifeWarn := true }) 0x4050 .note 6 p) 3 p else s
    if 1000 ≤ l ∧ !(s.port p).expired then
      raiseSl (logEv (s.updPort p fun t => { t with expired := true }) 0x4051 .action 6 p) 3 p else s

/-- An update of the slate record of a port. -/
def State.updSlate (s : State) (p : Nat) (f : Slate → Slate) : State := s.updPort p fun t => { t with slate := t.slate.map f }

/-- The indices of the wear blocks that a rectangle touches (R310). -/
def wearBlocks (width : Nat) (r : Rect) : List Nat :=
  let cols := divCeil width 64
  ((List.range (divCeil (r.y + r.h) 64)).filter (r.y / 64 ≤ ·)).flatMap fun v =>
    ((List.range (divCeil (r.x + r.w) 64)).filter (r.x / 64 ≤ ·)).map fun u => v * cols + u

/-- The first frame of a run over these rectangles completes: every block touched gains 1, counted in 32 bits (R310, R311). -/
def wearRun (s : State) (p : Nat) (rs : List Rect) : State :=
  noteLife (s.updSlate p fun sl =>
    let hit := rs.foldl (fun a r => (wearBlocks sl.width r).foldl addN a) []
    { sl with blocks := sl.blocks.zipIdx.map fun (v, i) => if hit.contains i then (v + 1) % 4294967296 else v }) p

/-! State-store writes -/

/-- Words queued for the state store at a priority level of R58, by channel, under a tag that names who waits for them; none for a store that is lost (R441). -/
def ssQueue (s : State) (level tag : Nat) (ws : List (Nat × Word)) : State :=
  if s.memc.ssLost then s else
  let part (c : Nat) : List (Nat × Word) := ws.filter fun e => ssChan s (e.1 - 0xA00000000) == c
  let es := ((List.range 4).map fun c => (c, level, tag, part c)).filter fun e => !e.2.2.2.isEmpty
  { s.useXspi with memc := { s.memc with ssq := s.memc.ssq ++ es } }

/-- Words that become durable. -/
def ssApply (s : State) (ws : List (Nat × Word)) : State := ws.foldl (fun s e => memSet s e.1 e.2) s

/-- Words of the state store written at a priority of R58: durable at once where their channels have nothing of that priority or a higher one to write first, and queued behind it otherwise. A store with a lost channel, over which such words are striped, takes none (R54, R441) (DESIGN CHOICE, log entry 29). -/
def ssPut (s : State) (level tag off : Nat) (vs : List Word) : State :=
  if s.memc.ssLost then s else
  if ssFree s level off vs.length then ssWrites s off vs else ssQueue s level tag (vs.zipIdx.map fun e => (ssAddr (off + e.2), e.1))

/-- Writes of a level and tag that no longer wait have no failures to their name (R60). -/
def MemCtl.forget (m : MemCtl) (level tag : Nat) : MemCtl := { m with ssFails := m.ssFails.filter fun e => !(e.2.1 == level && e.2.2.1 == tag) }

/-- Where a queued write stands by the priorities of R58, the target writes of URGENT regions ahead of those of other classes (R195). -/
def ssRank (s : State) (e : Nat × Nat × Nat × List (Nat × Word)) : Nat :=
  2 * e.2.1 + b2n (e.2.1 == 2 && !(s.disp.regions.any fun r => r.id == e.2.2.1 && r.cls == 1))

/-- Whether a channel has nothing left to write before the writes queued under a level and tag: no journal slot, and nothing of a higher priority or queued earlier at theirs (R58). -/
def ssDue (s : State) (level tag : Nat) : Bool :=
  let q := s.memc.ssq.zipIdx
  let mine (e : Nat × Nat × Nat × List (Nat × Word)) : Bool := e.2.1 == level && e.2.2.1 == tag
  q.all fun (e, i) => !mine e ||
    (!jrnHolds s e.1 && q.all fun (x, j) => mine x || x.1 != e.1 || decide (ssRank s e < ssRank s x) || (ssRank s x == ssRank s e && decide (i < j)))

/-- Whether writes of a level and tag are still queued. -/
def ssWaits (s : State) (level tag : Nat) : Bool := s.memc.ssq.any fun e => e.2.1 == level && e.2.2.1 == tag

/-- Every write queued under a level and tag becomes durable. -/
def ssFlush (s : State) (level tag : Nat) : State :=
  let mine (e : Nat × Nat × Nat × List (Nat × Word)) : Bool := e.2.1 == level && e.2.2.1 == tag
  let s' := (s.memc.ssq.filter mine).foldl (fun s e => ssApply s e.2.2.2) s
  { s' with memc := { s'.memc with ssq := s'.memc.ssq.filter fun e => !mine e }.forget level tag }

/-- Queued writes under a level and tag that will not be made. -/
def ssDrop (s : State) (level tag : Nat) : State :=
  { s with memc := { s.memc with ssq := s.memc.ssq.filter fun e => !(e.2.1 == level && e.2.2.1 == tag) }.forget level tag }

/-- The persistent copies of the state words of pixels of a port, as they stand now (R56). -/
def persistWords (s : State) (p : Nat) (px : List (Nat × Nat)) : List (Nat × Word) :=
  match s.place 0x05 p with
  | none => []
  | some pl => px.map fun q => (pl.base + q.2 * pl.pitch + q.1, wd (s.pixel p q.1 q.2))

/-- Poisoned granules of a state plane under a rectangle are rewritten from the persistent plane, which clears the poison (R440). -/
def healPlane (s : State) (p : Nat) (r : Rect) : State :=
  match s.place 0x01 p, s.place 0x05 p with
  | some pl, some pp =>
    let units := (rectPixels r).foldl (fun a q => let k := eccUnit (pl.base + q.2 * pl.pitch + q.1); if s.poison.contains k then addN a k else a) []
    units.foldl (fun s u =>
      let s := (List.range 32).foldl (fun s i =>
        let a := u + i
        if pl.base ≤ a ∧ a < pl.base + pl.size ∧ pl.pitch ≠ 0 then
          memSet s a (memSeen s (pp.base + (a - pl.base) / pl.pitch * pp.pitch + (a - pl.base) % pl.pitch)) else s) s
      logEv (clearPoison s u 32) 0x1002 .action 5) s
  | _, _ => s

end Sys2Proof.Machine
end

