-- ==== Sys2Proof/Machine/Trims.lean ====
section
/-! DEFINITION. The output targets of a course's rails and the user trims that move them (R318, R319). -/
namespace Sys2Proof.Machine
open Sys2Proof

def rlReg (k co : Nat) : Nat := k + 16 * co

/-! Output targets (R318) -/

/-- A value held between two limits. -/
def clampR (lo hi v : Int) : Int := if v < lo then lo else if hi < v then hi else v

/-- The output target of a source rail in 10 mV: set point × (1000 + TRIM) / 1000, rounded, clamped to 2.5 V to 16.0 V. -/
def sourceTarget (volt : Nat) (trim : Int) : Int := clampR 250 1600 (((volt : Int) * (1000 + clampR (-50) 50 trim) + 50) / 100)

/-- The user trims of a course as they are taken: ±50 for each pair, ±100 for VOFS, outside as the nearer limit (R318, R319). -/
def trimWords (s : State) (co : Nat) : List Word :=
  let byte (lim : Int) (v : Nat) : Nat := ofSigned 8 (clampR (-lim) lim (toSigned 8 v))
  let u1 := s.eff (rlReg Reg.RL_CO_UTRIM1 co)
  let u2 := s.eff (rlReg Reg.RL_CO_UTRIM2 co)
  [wd (256 * byte 50 (u1 / 256) + byte 50 u1), wd (256 * byte 50 (u2 / 256) + byte 100 u2)]

/-- The output targets of a course's nine rails in 10 mV, in the order of RL_COn_FAULT.RAIL. -/
def railTargets (s : State) (co : Nat) : List Int :=
  let v (k hi : Nat) : Nat := s.regF (rlReg k co) hi 0
  let u1 := s.reg (rlReg Reg.RL_CO_UTRIM1 co)
  let u2 := s.reg (rlReg Reg.RL_CO_UTRIM2 co)
  let h := sourceTarget (v Reg.RL_CO_VSH 7) (toSigned 8 (u1 / 256))
  let m := sourceTarget (v Reg.RL_CO_VSM 7) (toSigned 8 u1)
  let r := sourceTarget (v Reg.RL_CO_VSR 7) (toSigned 8 (u2 / 256))
  let c := clampR (-400) 100 (toSigned 10 (v Reg.RL_CO_VCOM 9) + clampR (-100) 100 (toSigned 8 u2))
  [10 * (v Reg.RL_CO_VGH 8 : Nat), -(10 * (v Reg.RL_CO_VGL 8 : Nat) : Int), h, -h, m, -m, r, -r, c]

/-- The user trims of a course take effect (R319). -/
def applyTrims (s : State) (co : Nat) : State :=
  let s := (s.takeEffect (rlReg Reg.RL_CO_UTRIM1 co)).takeEffect (rlReg Reg.RL_CO_UTRIM2 co)
  if (s.course co).rail = .off ∨ (s.course co).rail = .fault then s else s.updCourse co fun c => { c with tgt := railTargets s co }

end Sys2Proof.Machine
end

