-- ==== Sys2Proof/Machine/Element.lean ====
section
/-! DEFINITION. Element arithmetic of the pipes: the I, M, F, D and B units (R101 to R124), each on 32-bit elements as numbers below 2^32. -/
namespace Sys2Proof.Machine
open Sys2Proof

/-- 2^32. -/
def M32 : Nat := 4294967296

def sInt (a : Nat) : Int := toSigned 32 a
def clampI (lo hi v : Int) : Nat := ofSigned 32 (if v < lo then lo else if v > hi then hi else v)

/-- The I unit (Table 4.1); none for an operation code the table does not list. -/
def unitI (op a b c : Nat) : Option Nat :=
  let sa := sInt a
  let sb := sInt b
  let sc := sInt c
  let n := b % 64
  match op with
  | 0x01 => some ((a + b) % M32)
  | 0x02 => some ((a + M32 - b) % M32)
  | 0x03 => some (clampI (-2147483648) 2147483647 (sa + sb))
  | 0x04 => some (clampI (-2147483648) 2147483647 (sa - sb))
  | 0x05 => some (satTo (M32 - 1) (a + b))
  | 0x06 => some (a - b)
  | 0x07 => some ((M32 - a) % M32)
  | 0x08 => some (satTo 0x7FFFFFFF sa.natAbs)
  | 0x09 => some (if sa ≤ sb then a else b)
  | 0x0A => some (if sa ≤ sb then b else a)
  | 0x0B => some (min a b)
  | 0x0C => some (max a b)
  | 0x0D => some (ofSigned 32 (min (max sa sb) sc))
  | 0x0E => some (ofSigned 32 ((if sa + sb < -8 then -8 else if sa + sb > 7 then 7 else sa + sb) + 8))
  | 0x10 => some (b2n (a == b))
  | 0x11 => some (b2n (a != b))
  | 0x12 => some (b2n (sa < sb))
  | 0x13 => some (b2n (sa ≤ sb))
  | 0x14 => some (b2n (a < b))
  | 0x15 => some (b2n (a ≤ b))
  | 0x18 => some (if c ≠ 0 then a else b)
  | 0x20 => some (a &&& b)
  | 0x21 => some (a ||| b)
  | 0x22 => some (a ^^^ b)
  | 0x23 => some (a &&& (M32 - 1 - b))
  | 0x24 => some (M32 - 1 - a)
  | 0x28 => some ((a <<< n) % M32)
  | 0x29 => some (a >>> n)
  | 0x2A => some (ofSigned 32 (sa / (2 ^ n : Nat)))
  | 0x2B => some (if n = 0 then a else if n ≥ 32 then 0 else ofSigned 32 ((sa + (2 ^ (n - 1) : Nat)) / (2 ^ n : Nat)))
  | 0x30 => some (clampI (-32768) 32767 sa)
  | 0x31 => some (clampI 0 65535 sa)
  | 0x32 => some (clampI 0 1023 sa)
  | 0x33 => some (clampI 0 255 sa)
  | 0x34 => some (clampI (-8) 7 sa)
  | _ => none

/-- The M unit (Table 4.2). -/
def unitM (op a b : Nat) : Option Nat :=
  let s16 (x : Nat) : Int := toSigned 16 (x % 65536)
  match op with
  | 0x01 => some (a * b % M32)
  | 0x02 => some (ofSigned 32 ((sInt a * sInt b) / (M32 : Int)))
  | 0x03 => some (a * b / M32)
  | 0x04 => some (ofSigned 32 (s16 a * s16 b))
  | 0x05 => some ((a % 65536) * (b % 65536))
  | 0x06 => some (clampI (-32768) 32767 ((s16 a * s16 b + 0x4000) / 32768))
  | _ => none

/-- Flush each input of a format, and give the flags. -/
def flush3 (f : Fmt) (a b c : Nat) : Nat × Nat × Nat × Nat :=
  let (a, x) := f.flush a
  let (b, y) := f.flush b
  let (c, z) := f.flush c
  (a, b, c, x ||| y ||| z)

/-- The operations common to both formats, by the low four bits of the code (Table 4.4). A subnormal input of FABS and FNEG is flushed and sets FI, as R109 says, beside R115's "no flag" (DESIGN CHOICE, log entry 50). -/
def unitFop (f : Fmt) (r : Rnd) (op a b c : Nat) : Option (Nat × Nat) :=
  let a := a % 2 ^ (f.ew + f.mw + 1)
  let b := b % 2 ^ (f.ew + f.mw + 1)
  let c := c % 2 ^ (f.ew + f.mw + 1)
  let (x, y, _, f2) := flush3 f a b 0
  let (_, _, z, f3) := flush3 f a b c
  let (_, fa) := f.flush a
  let out (o : FOut) (fl : Nat) : Option (Nat × Nat) := some (o.bits, o.flags ||| fl)
  match op with
  | 1 => out (f.add r x y) f2
  | 2 => out (f.add r x (y ^^^ f.signBit)) f2
  | 3 => out (f.fma r x y none) f2
  | 4 => out (f.fma r x y (some z)) f3
  | 5 => out (f.minMax true x y) f2
  | 6 => out (f.minMax false x y) f2
  | 7 => out ⟨x % f.signBit, 0, false⟩ fa
  | 8 => out ⟨x ^^^ f.signBit, 0, false⟩ fa
  | 9 => out (f.cmp .eq x y) f2
  | 10 => out (f.cmp .lt x y) f2
  | 11 => out (f.cmp .le x y) f2
  | _ => none

/-- The F unit (Table 4.4): result and flags. -/
def unitF (r : Rnd) (op a b c : Nat) : Option (Nat × Nat) :=
  let h := a % 65536
  let out (o : FOut) (fl : Nat) : Option (Nat × Nat) := some (o.bits, o.flags ||| fl)
  let toI (f : Fmt) (x : Nat) (lo hi : Int) : Option (Nat × Nat) :=
    let (x, fl) := f.flush x
    let (v, g) := cvtFI f r lo hi x
    some (ofSigned 32 v, g ||| fl)
  if 0x01 ≤ op ∧ op ≤ 0x0B then unitFop fmtS r op a b c
  else if 0x11 ≤ op ∧ op ≤ 0x1B then unitFop fmtH r (op - 0x10) a b c
  else match op with
  | 0x20 => let (x, fl) := fmtH.flush h; out (cvtFF fmtH fmtS r x) fl
  | 0x21 => let (x, fl) := fmtS.flush a; out (cvtFF fmtS fmtH r x) fl
  | 0x22 => out (cvtIF fmtS r (sInt a)) 0
  | 0x23 => out (cvtIF fmtS r a) 0
  | 0x24 => toI fmtS a (-2147483648) 2147483647
  | 0x25 => toI fmtS a 0 4294967295
  | 0x26 => out (cvtIF fmtH r (sInt a)) 0
  | 0x27 => toI fmtH h (-2147483648) 2147483647
  | _ => none

/-- Division truncating towards zero. -/
def tdivI (a b : Int) : Int := if (a < 0) = (b < 0) then ((a.natAbs / b.natAbs : Nat) : Int) else -((a.natAbs / b.natAbs : Nat) : Int)

/-- The D unit (Table 4.8, R120): result and flags. -/
def unitD (r : Rnd) (op a b : Nat) : Option (Nat × Nat) :=
  let fdiv (f : Fmt) : Option (Nat × Nat) :=
    let (x, y, _, fl) := flush3 f (a % 2 ^ (f.ew + f.mw + 1)) (b % 2 ^ (f.ew + f.mw + 1)) 0
    let o := f.div r x y
    some (o.bits, o.flags ||| fl)
  let fsq (f : Fmt) : Option (Nat × Nat) :=
    let (x, fl) := f.flush (a % 2 ^ (f.ew + f.mw + 1))
    let o := f.sqrt r x
    some (o.bits, o.flags ||| fl)
  match op with
  | 0x01 => some (if b = 0 then (0xFFFFFFFF, flDZ) else (a / b, 0))
  | 0x02 => some (if b = 0 then (if a < 0x80000000 then 0x7FFFFFFF else 0x80000000, flDZ)
      else if a = 0x80000000 ∧ b = 0xFFFFFFFF then (0x7FFFFFFF, flOF) else (ofSigned 32 (tdivI (sInt a) (sInt b)), 0))
  | 0x03 => some (if b = 0 then (a, flDZ) else (a % b, 0))
  | 0x04 => some (if b = 0 then (a, flDZ) else (ofSigned 32 (sInt a - tdivI (sInt a) (sInt b) * sInt b), 0))
  | 0x10 => fdiv fmtS
  | 0x11 => fsq fmtS
  | 0x18 => fdiv fmtH
  | 0x19 => fsq fmtH
  | _ => none

/-- The carry-less product over the low `k` bits of b. -/
def clmulGo (a b : Nat) : Nat → Nat
  | 0 => 0
  | k + 1 => clmulGo a b k ^^^ (if bitN b k then a <<< k else 0)

/-- The low `k` bits of a number in reversed order. -/
def revBits : Nat → Nat → Nat
  | 0, _ => 0
  | k + 1, a => (a % 2) * 2 ^ k + revBits k (a / 2)

/-- The number of 1 bits among the low `k`. -/
def popN : Nat → Nat → Nat
  | 0, _ => 0
  | k + 1, a => a % 2 + popN k (a / 2)

/-- The number of 0 bits above the highest 1 bit of a k-bit number. -/
def clzN (k a : Nat) : Nat := if a = 0 then k else k - 1 - a.log2

/-- Both halves of an element under a function of the half's index. -/
def onHalves (f : Nat → Nat → Nat) (a : Nat) : Nat := f 0 (a % 65536) + 65536 * f 1 (a / 65536 % 65536)

/-- A pixel state word whose S takes its T and whose OPEN clears (Table 4.9, PSCLOSE). -/
def psClose (w : Nat) : Nat := setBitsN (setBitsN w 4 0 (bitsN w 9 5)) 14 14 0

/-- The B unit (Table 4.9). -/
def unitB (op a b k : Nat) : Option Nat :=
  match op with
  | 0x01 => some (crcBits 32 0x04C11DB7 32 a b)
  | 0x02 => some (crcBits 16 0x1021 16 (a % 65536) (b % 65536))
  | 0x03 => some (clmulGo a b 32 % M32)
  | 0x04 => some (clmulGo a b 32 / M32)
  | 0x08 => some (popN 32 a % 2)
  | 0x09 => some (popN 16 (a % 65536) % 2 + 65536 * (popN 16 (a / 65536) % 2))
  | 0x0A => some (popN 32 a)
  | 0x0B => some (clzN 32 a)
  | 0x10 => let w := satTo 32 (b % 64); some (a / 2 ^ w * 2 ^ w + revBits w (a % 2 ^ w))
  | 0x18 => some (a % 65536 + 65536 * (b % 65536))
  | 0x19 => some ((a >>> (b % 32)) % 2 ^ (bitsN b 9 5 + 1))
  | 0x1A => let w := bitsN b 9 5 + 1; some (ofSigned 32 (toSigned w ((sInt a / (2 ^ (b % 32) : Nat)) % (2 ^ w : Nat)).toNat))
  | 0x20 => some (onHalves (fun h w => if bitN b h && !bitN w 15 then setBitsN w 14 14 1 else w) a)
  | 0x21 => some (onHalves (fun h w => if bitN b h && bitN w 14 then psClose w else w) a)
  | 0x22 =>
    let m := k % 65536
    some (onHalves (fun h w =>
      let bh := (b >>> (16 * h)) % 65536
      if bitN k (16 + h) && !(bitN w 15 && !bitN m 15) then (w &&& (65535 - m)) ||| (bh &&& m) else w) a)
  | _ => none

/-- lerp of R126. -/
def lerp (p q f : Nat) : Nat := ((p : Int) + (((q : Int) - p) * f + 32) / 64).toNat

/-- The trilinear step of one output channel from its eight corner values, R fastest (R126). -/
def lerp8 (v : List Nat) (fr fg fb : Nat) : Nat :=
  let g (i : Nat) := v.getD i 0
  let r (i : Nat) := lerp (g (2 * i)) (g (2 * i + 1)) fr
  let q (i : Nat) := lerp (r (2 * i)) (r (2 * i + 1)) fg
  lerp (q 0) (q 1) fb

/-- The grid entries that a LUT3 of a C30 element reads, R fastest (R126). -/
def lut3Index (a : Nat) : List Nat :=
  let r := bitsN a 9 6
  let g := bitsN a 19 16
  let b := bitsN a 29 26
  [0, 1, 2, 3, 4, 5, 6, 7].map fun i => (r + i % 2) + 17 * (g + i / 2 % 2) + 289 * (b + i / 4)

/-- The result of LUT3 from its eight entries (R126). -/
def lut3Result (a : Nat) (v : List Nat) : Nat :=
  let fr := bitsN a 5 0
  let fg := bitsN a 15 10
  let fb := bitsN a 25 20
  let ch (i : Nat) := lerp8 (v.map fun e => bitsN e (10 * i + 9) (10 * i)) fr fg fb
  ch 0 + 1024 * ch 1 + 1048576 * ch 2 + 1073741824 * bitsN a 31 30

/-- Whether an operation code is listed for its unit (R101): 1 G, 2 I, 3 M, 4 F, 5 D, 6 B, 7 W (Table 5.12). -/
def opDefined (unit op : Nat) : Bool :=
  match unit with
  | 1 => 1 ≤ op && op ≤ 3
  | 2 => (unitI op 0 0 0).isSome
  | 3 => (unitM op 0 0).isSome
  | 4 => (unitF .rne op 0 0 0).isSome
  | 5 => (unitD .rne op 0 0).isSome
  | 6 => (unitB op 0 0 0).isSome
  | 7 => 1 ≤ op && op ≤ 3
  | _ => false

end Sys2Proof.Machine
end

