-- ==== Sys2Proof/Machine/Stream.lean ====
section
/-! DEFINITION. Streams of the vector engine: windows (R82), descriptors (R75 to R79), addressing (R80), chain patterns (R83 to R86) and the run of one element. -/
namespace Sys2Proof.Machine
open Sys2Proof

/-! Queues and windows -/

/-- VE_QBINDn (Table 3.21). -/
def State.qbind (s : State) (q : Nat) : Nat := s.reg (Reg.VE_QBIND0 + 4 * q) 2
def State.qEnable (s : State) (q : Nat) : Bool := bitN (s.qbind q) 31
def State.qStop (s : State) (q : Nat) : Bool := bitN (s.qbind q) 30
def State.qRing (s : State) (q : Nat) : Nat := bitsN (s.qbind q) 29 28
def State.qClass (s : State) (q : Nat) : Nat := bitsN (s.qbind q) 27 26

/-- The windows of a queue's WINMASK that grant a right: base and inclusive limit. -/
def State.qWins (s : State) (q : Nat) (write : Bool) : List (Nat × Nat) :=
  ((List.range 16).filter fun w => bitN (s.qbind q) w && s.regF (Reg.VE_WIN0 + 8 * w + 6) (b2n write) (b2n write) == 1).map
    fun w => (s.reg (Reg.VE_WIN0 + 8 * w) 3 % 2 ^ 36, s.reg (Reg.VE_WIN0 + 8 * w + 3) 3 % 2 ^ 36)

/-- Whether a vector command may reach a word (Table 2.2, R33). -/
def vecReach (s : State) (write : Bool) (a : Nat) : Bool :=
  match spaceOf s a with
  | .hbm | .vs => true
  | .store _ => !write
  | _ => false

/-- The check of R82 on the words of one access. -/
def accessOk (s : State) (q : Nat) (words : List Int) (write : Bool) : Bool :=
  words.all (fun a => decide (0 ≤ a) && decide (a < 0x1000000000) && vecReach s write a.toNat &&
    !(s.qRing q ≥ 2 && inStatePlane s a.toNat)) &&
  (s.qWins q write).any fun w => words.all fun a => decide ((w.1 : Int) ≤ a) && decide (a ≤ w.2)

/-! Descriptors -/

/-- A stream descriptor's fields (Table 3.7). -/
structure Desc where
  base   : Nat
  item   : Nat
  stride : Int
  type   : Nat
  mode   : Nat
  brw    : Nat
  mlen   : Nat
  deriving DecidableEq, Repr

/-- A descriptor from its 8 words. -/
def descOf (ws : List Word) : Desc :=
  ⟨addrAt ws 0, bitsN (wordAt ws 2) 6 4, toSigned 32 (dwordAt ws 3), bitsN (wordAt ws 5) 15 12, bitsN (wordAt ws 5) 11 10,
    bitsN (wordAt ws 5) 9 5, dwordAt ws 6⟩

/-- The words of descriptor d in the register block (R78). -/
def State.descWords (s : State) (d : Nat) : List Word := (List.range 8).map fun i => s.regW (Reg.VE_DESC + 8 * d + i)

/-- Words per element (Table 3.8); 1 for the packed types. -/
def typeWords (t : Nat) : Nat := if t = 2 ∨ t = 4 ∨ t = 8 ∨ t = 9 then 2 else 1
/-- Items per word of a packed type; 0 for the others. -/
def typeItems (t : Nat) : Nat := if t = 5 then 2 else if t = 6 then 4 else if t = 7 then 5 else 0

/-- The index descriptor of an indexed descriptor. -/
def Desc.xdesc (d : Desc) : Nat := d.mlen % 4096

/-- The first rule of Table 3.9 that a descriptor breaks; reason 0x8 is that of the indexed descriptor, in its own slot and with its index (DESIGN CHOICE, log entry 50). -/
def descReason (s : State) (idx : Nat) : Option Nat :=
  if idx = 0xFFF then some 0x9 else
  let ws := s.descWords idx
  let d := descOf ws
  let p := typeItems d.type
  let x := descOf (s.descWords d.xdesc)
  let l := d.mlen % 2 ^ 24
  if bitsN (wordAt ws 2) 15 7 ≠ 0 ∨ bitsN (wordAt ws 5) 4 0 ≠ 0 ∨
      (d.mode = 1 ∧ d.mlen ≥ 2 ^ 24) ∨ (d.mode = 3 ∧ d.mlen ≥ 4096) ∨ ((d.mode = 0 ∨ d.mode = 2) ∧ d.mlen ≠ 0) then some 0x1
  else if d.type ≥ 10 then some 0x2
  else if typeWords d.type = 2 ∧ d.base % 2 = 1 then some 0x3
  else if (p ≠ 0 ∧ d.mode ≥ 2) ∨ ((d.type = 8 ∨ d.type = 9) ∧ d.mode = 3) then some 0x4
  else if (p ≠ 0 ∧ d.stride ≠ 1) ∨ (d.mode ≥ 2 ∧ d.stride = 0) then some 0x5
  else if (d.mode = 2 ∧ (d.brw = 0 ∨ d.brw > 24)) ∨ (d.mode ≠ 2 ∧ d.brw ≠ 0) ∨ (p ≠ 0 ∧ d.item ≥ p) ∨ (p = 0 ∧ d.item ≠ 0) then some 0x6
  else if d.mode = 1 ∧ (l = 0 ∨ (p ≠ 0 ∧ l % p ≠ 0) ∨ (d.type = 7 ∧ l % 10 ≠ 0)) then some 0x7
  else if d.mode = 3 ∧ (d.xdesc = 0xFFF ∨ x.mode = 3 ∨ x.type > 2) then some 0x8
  else none

/-! Addressing -/

/-- A piece of an element: `width` bits from bit `lo` of a word, at bit `ebit` of the element; `clr` says that storing it writes 0 to bit 15 of the word, which the stream has then written whole (R76). -/
structure Part where
  addr  : Int
  lo    : Nat
  width : Nat
  ebit  : Nat
  clr   : Bool
  deriving DecidableEq, Repr

/-- The low `w` bits of i in reversed order, its higher bits unchanged (R80). -/
def bitRevIdx (w i : Nat) : Nat := i / 2 ^ w * 2 ^ w + revBits w (i % 2 ^ w)

/-- The word address of element i of a stream that is not packed; x is the index of an indexed stream (R80). -/
def Desc.addr (d : Desc) (i : Nat) (x : Int) : Int :=
  let e : Int := typeWords d.type
  match d.mode with
  | 0 => d.base + i * d.stride * e
  | 1 =>
    let l : Int := (d.mlen % 2 ^ 24 : Nat)
    let b0 : Int := (d.base : Int) / (l * e) * (l * e)
    b0 + (((d.base : Int) - b0) / e + i * d.stride) % l * e
  | 2 => d.base + (bitRevIdx d.brw i : Nat) * d.stride * e
  | _ => d.base + x * d.stride * e

/-- Where item n of a packed stream lies: word address and position in the word (R80). -/
def Desc.itemAt (d : Desc) (n : Nat) : Int × Nat :=
  let p := typeItems d.type
  if d.mode = 1 then
    let l := d.mlen % 2 ^ 24
    let b0 := d.base / (l / p) * (l / p)
    let pos := ((d.base - b0) * p + d.item + n) % l
    ((b0 + pos / p : Nat), pos % p)
  else ((d.base + (d.item + n) / p : Nat), (d.item + n) % p)

/-- The piece that item n of a packed stream is. A K3 word counts as written whole when its five items follow one another in the stream; one whose first items were stored before a modulo wrap and whose rest come after it keeps bit 15 until position 4 is stored again (DESIGN CHOICE, log entry 50). -/
def Desc.itemPart (d : Desc) (n ebit : Nat) : Part :=
  let (a, pos) := d.itemAt n
  let w := if d.type = 5 then 8 else if d.type = 6 then 4 else 3
  ⟨a, w * pos, w, ebit, d.type == 7 && pos == 4 && decide (4 ≤ n)⟩

/-- The pieces of element i of a stream (R76, R80). -/
def Desc.parts (d : Desc) (i : Nat) (x : Int) : List Part :=
  if d.type = 7 then [d.itemPart (2 * i) 0, d.itemPart (2 * i + 1) 16]
  else if typeItems d.type ≠ 0 then [d.itemPart i 0]
  else
    let a := d.addr i x
    if typeWords d.type = 2 then [⟨a, 0, 16, 0, false⟩, ⟨a + 1, 0, 16, 16, false⟩] else [⟨a, 0, 16, 0, false⟩]

/-- An element widened from its pieces (Table 3.8). -/
def widen (type raw : Nat) : Nat :=
  if type = 1 then ofSigned 32 (toSigned 16 raw) else if type = 6 then ofSigned 32 (toSigned 4 raw) else raw

/-- A read of pieces: the raw element, or the fault (false: window; true: poison). -/
def readParts (s : State) (q : Nat) (ps : List Part) : Except Bool Nat :=
  if !accessOk s q (ps.map (·.addr)) false then .error false
  else if ps.any fun p => poisoned s p.addr.toNat then .error true
  else .ok (ps.foldl (fun v p => v + (bitsN (memGet s p.addr.toNat).toNat (p.lo + p.width - 1) p.lo <<< p.ebit)) 0)

/-- The descriptors a command has copied (R78). -/
abbrev Descs := List (Nat × List Word)

/-- A copied descriptor. -/
def Descs.at (ds : Descs) (i : Nat) : Desc :=
  match ds.find? (·.1 == i) with
  | some e => descOf e.2
  | none => descOf []

/-- The index value of element i: 0 where the stream is not indexed. -/
def indexOf (s : State) (q : Nat) (ds : Descs) (d : Desc) (i : Nat) : Except Bool Int :=
  if d.mode = 3 then
    let x := ds.at d.xdesc
    (readParts s q (x.parts i 0)).map fun v => if x.type = 1 then toSigned 16 v else (v : Int)
  else .ok 0

/-- Element i of the stream of a descriptor, widened. -/
def readElem (s : State) (q : Nat) (ds : Descs) (di i : Nat) : Except Bool Nat := do
  let d := ds.at di
  let x ← indexOf s q ds d i
  let raw ← readParts s q (d.parts i x)
  return widen d.type raw

/-- The masked word stores of element i of a stream, or a window fault. -/
def storeElem (s : State) (q : Nat) (ds : Descs) (di i v : Nat) : Except Bool (List VStore) := do
  let d := ds.at di
  let x ← indexOf s q ds d i
  let ps := d.parts i x
  if !accessOk s q (ps.map (·.addr)) true then .error false
  else return ps.map fun p => ⟨p.addr.toNat, wd (((v >>> p.ebit) % 2 ^ p.width) <<< p.lo),
    wd (((2 ^ p.width - 1) <<< p.lo) + (if p.clr then 32768 else 0))⟩

/-! Chain patterns -/

/-- A stage word of a pattern (Table 3.11). -/
def stageWord (u a b c : Nat) : Word := wd (u * 4096 + a * 256 + b * 16 + c)
/-- Word 8 of a pattern: the sources of S0 and, where it stores, S1. -/
def storeWord (s0 : Nat) (s1 : Option Nat) : Word := wd (32768 + s0 * 2048 + (match s1 with | some x => 128 + x * 8 | none => 0))
/-- A pattern slot's 16 words. -/
def patWords (stages : List Word) (sw : Word) : List Word :=
  [wd (32768 + stages.length * 256)] ++ stages ++ List.replicate (7 - stages.length) 0 ++ [sw] ++ List.replicate 7 0

/-- The fixed patterns (Table 3.13). -/
def fixedPattern (i : Nat) : List Word :=
  match i with
  | 0 => patWords [stageWord 7 1 0 0] (storeWord 8 none)
  | 1 => patWords [stageWord 6 1 4 0] (storeWord 8 none)
  | 2 => patWords [] (storeWord 1 none)
  | 3 => patWords [] (storeWord 4 none)
  | 4 => patWords [stageWord 2 1 4 0] (storeWord 8 none)
  | 5 => patWords [stageWord 2 1 2 0] (storeWord 8 none)
  | 6 => patWords [stageWord 3 1 4 0, stageWord 2 8 2 0] (storeWord 9 none)
  | 7 => patWords [stageWord 4 1 2 0] (storeWord 8 none)
  | 8 => patWords [stageWord 4 1 4 0] (storeWord 8 none)
  | 9 => patWords [stageWord 4 1 2 3] (storeWord 8 none)
  | 10 => patWords [stageWord 5 1 2 0] (storeWord 8 none)
  | 11 => patWords [stageWord 1 1 0 0] (storeWord 8 none)
  | 12 => patWords [stageWord 1 1 0 0, stageWord 2 8 2 0] (storeWord 9 none)
  | 13 => patWords [stageWord 2 1 2 0, stageWord 1 8 0 0] (storeWord 9 (some 8))
  | 14 => patWords [stageWord 6 1 4 0] (storeWord 8 none)
  | _ => patWords [] (storeWord 1 (some 2))

/-- The words of a pattern slot (R85): fixed below 16, the plan's above. -/
def State.pattern (s : State) (slot : Nat) : List Word :=
  if slot < 16 then fixedPattern slot else (List.range 16).map fun i => s.regW (Reg.VE_PATTERN + 16 * (slot - 16) + i)

def patStages (ws : List Word) : Nat := bitsN (wordAt ws 0) 11 8
def patUnit (ws : List Word) (i : Nat) : Nat := bitsN (wordAt ws (1 + i)) 15 12
def patSrc (ws : List Word) (i k : Nat) : Nat := bitsN (wordAt ws (1 + i)) (11 - 4 * k) (8 - 4 * k)
def patEn (ws : List Word) (k : Nat) : Bool := if k = 0 then bitN (wordAt ws 8) 15 else bitN (wordAt ws 8) 7
def patStoreSrc (ws : List Word) (k : Nat) : Nat := if k = 0 then bitsN (wordAt ws 8) 14 11 else bitsN (wordAt ws 8) 6 3
/-- The units a pattern uses, stage by stage. -/
def patUnits (ws : List Word) : List Nat := (List.range (patStages ws)).map (patUnit ws)
/-- How many inputs a unit has (Tables 4.1 to 4.10, 5.11). -/
def unitInputs (u : Nat) : Nat := if u = 1 ∨ u = 7 then 1 else if u = 2 ∨ u = 4 then 3 else 2

/-- Whether a source code may be read where `k` stages stand before (Table 3.12). -/
def srcOk (k c : Nat) : Bool := c ≤ 4 || (8 ≤ c && c < 8 + k)

/-- Whether a pattern slot is valid (R84). -/
def patValid (ws : List Word) : Bool :=
  let n := patStages ws
  let us := patUnits ws
  bitN (wordAt ws 0) 15 && n ≤ 7 && bitsN (wordAt ws 0) 14 12 == 0 && bitsN (wordAt ws 0) 7 0 == 0 &&
  us.all (fun u => 1 ≤ u && u ≤ 7) && decide us.Nodup &&
  (List.range 7).all (fun i => i < n || wordAt ws (1 + i) == 0) &&
  bitsN (wordAt ws 8) 10 8 == 0 && bitsN (wordAt ws 8) 2 0 == 0 && (ws.drop 9).all (· == 0) &&
  (List.range n).all (fun i => (List.range 3).all fun k =>
    srcOk i (patSrc ws i k) && (k < unitInputs (patUnit ws i) || patSrc ws i k == 0)) &&
  (patEn ws 0 || patEn ws 1) &&
  (List.range 2).all (fun k => if patEn ws k then srcOk n (patStoreSrc ws k) else patStoreSrc ws k == 0)

/-- Whether a load port 0 to 2 is referenced (R84). -/
def patLoads (ws : List Word) (l : Nat) : Bool :=
  (List.range (patStages ws)).any (fun i => (List.range 3).any fun k => patSrc ws i k == 1 + l) ||
  (List.range 2).any (fun k => patEn ws k && patStoreSrc ws k == 1 + l)

/-! Command fields (Table 3.3) -/
def cmdPattern (ws : List Word) : Nat := bitsN (wordAt ws 0) 15 10
def cmdClass (ws : List Word) : Nat := bitsN (wordAt ws 0) 9 8
def cmdIrq (ws : List Word) : Bool := bitN (wordAt ws 0) 7
def cmdFpte (ws : List Word) : Bool := bitN (wordAt ws 0) 6
def cmdRnd (ws : List Word) : Rnd := rndOf (bitsN (wordAt ws 0) 5 4)
def cmdN (ws : List Word) : Nat := dwordAt ws 1
def cmdK (ws : List Word) : Nat := dwordAt ws 7
def cmdDesc (ws : List Word) (slot : Nat) : Nat := wordAt ws (9 + slot) % 4096
def cmdCrec (ws : List Word) : Nat := wordAt ws 14
/-- The operation of a unit: 1 G, 2 I, 3 M, 4 F, 5 D, 6 B, 7 W. -/
def cmdOp (ws : List Word) (u : Nat) : Nat :=
  match u with
  | 1 => wordAt ws 6 / 256
  | 2 => wordAt ws 3 / 256
  | 3 => wordAt ws 3 % 256
  | 4 => wordAt ws 4 / 256
  | 5 => wordAt ws 4 % 256
  | 6 => wordAt ws 5 / 256
  | 7 => wordAt ws 5 % 256
  | _ => 0

/-- The ports a command uses with their descriptor indexes: slots 0 to 2 load ports, 3 and 4 store ports, 6 the G table (R79, R86). -/
def cmdSlots (ws pat : List Word) : List (Nat × Nat) :=
  ((List.range 3).filter (patLoads pat)).map (fun l => (l, cmdDesc ws l)) ++
  ((List.range 2).filter (patEn pat)).map (fun k => (3 + k, cmdDesc ws (3 + k))) ++
  (if (patUnits pat).contains 1 then [(6, cmdK ws % 4096)] else [])

/-- The index descriptors among slots, each under slot 5 where its port is the lowest that has one, under its port's own slot otherwise (R79). -/
def indexSlots (s : State) (lowest : Option Nat) (l : List (Nat × Nat)) : List (Nat × Nat) :=
  (l.filter fun e => e.2 != 0xFFF && (descOf (s.descWords e.2)).mode == 3).map fun e => (if some e.1 = lowest then 5 else e.1, (descOf (s.descWords e.2)).xdesc)

/-- The first descriptor fault of a command: reason, slot, descriptor index (R79, Table 3.5). The ports' descriptors are checked in slot order, then their index descriptors, then the G table and its index descriptor, each in the order of Table 3.9; the rule orders the reasons of one descriptor only. Of the index descriptors, slot 5 is that of the lowest slot; a fault of another is reported under its own port's slot. A G table of index 0xFFF takes reason 0x9, as a port's does (DESIGN CHOICE, log entry 50). -/
def descFault (s : State) (ws pat : List Word) : Option (Nat × Nat × Nat) :=
  let all := cmdSlots ws pat
  let ports := all.filter (·.1 < 5)
  let table := all.filter (·.1 == 6)
  let lowest := ((all.filter fun e => e.2 != 0xFFF && (descOf (s.descWords e.2)).mode == 3).head?).map (·.1)
  (ports ++ indexSlots s lowest ports ++ table ++ indexSlots s lowest table).findSome? fun e => (descReason s e.2).map fun r => (r, e.1, e.2)

/-- The descriptors a command copies when its first segment starts (R78): those of its slots and their index descriptors. -/
def copyDescs (s : State) (ws pat : List Word) : Descs :=
  let ds := (cmdSlots ws pat).map (·.2)
  let xs := (ds.filter fun d => (descOf (s.descWords d)).mode == 3).map fun d => (descOf (s.descWords d)).xdesc
  (ds ++ xs).eraseDups.map fun d => (d, s.descWords d)

/-! The W unit -/

/-- The code of an index in a table slot; hold where the slot was never written. -/
def slotCode (s : State) (slot idx : Nat) : Nat :=
  match s.ve.slots.getD slot none with
  | some t => (t.codes.getD idx 0).toNat
  | none => 0

/-- The W unit on one PS element (R151): element i of a command of n elements. -/
def unitW (s : State) (op k n i a : Nat) : Option Nat :=
  let e := bitsN k 31 20
  let line := if e = 0 then 0 else i / e
  let pos := if e = 0 then i else i % e
  let pixels := 2 * (if e = 0 then n else e)
  let lp := (bitsN k 10 10 + line) % 2
  let slot := bitsN k 3 0
  let half (h : Nat) : Nat :=
    let w := (a >>> (16 * h)) % 65536
    let col := 2 * pos + h
    let t := if op = 1 then slot else if op = 2 then slot / 2 * 2 + lp else slot / 2 * 2 + (lp + h) % 2
    if col < bitsN k 6 4 ∨ pixels ≤ col + bitsN k 9 7 then 0
    else if psHeld w ∨ ¬ psOpen w then 0
    else slotCode s t (1024 * psTrim w + 32 * psS w + psT w)
  if 1 ≤ op ∧ op ≤ 3 then some (half 0 + 65536 * half 1) else none

/-! One element -/

/-- A stage's value: its unit's operation on its inputs. Answers the result and the flags, or a fault of a table read. Where an element's reads meet both a window fault and poison, the first in read order decides: ports in slot order before tables, an index before its element, the entries of LUT3 in their order, and within one access the window check before the poison (DESIGN CHOICE, log entry 50). -/
def runUnit (s : State) (q : Nat) (ws : List Word) (ds : Descs) (i u a b c : Nat) : Except Bool (Nat × Nat) :=
  let op := cmdOp ws u
  let k := cmdK ws
  let entry (x : Nat) := readElem s q ds (k % 4096) x
  let plain (o : Option Nat) : Except Bool (Nat × Nat) := .ok (o.getD 0, 0)
  match u with
  | 1 =>
    if op = 1 then (entry a).map (·, 0)
    else if op = 2 then (entry (min (if a ≥ 2147483648 then 0 else a) (bitsN k 31 12))).map (·, 0)
    else do
      let vs ← (lut3Index a).mapM entry
      return (lut3Result a vs, 0)
  | 2 => plain (unitI op a b c)
  | 3 => plain (unitM op a b)
  | 4 => .ok ((unitF (cmdRnd ws) op a b c).getD (0, 0))
  | 5 => .ok ((unitD (cmdRnd ws) op a b).getD (0, 0))
  | 6 => plain (unitB op a b k)
  | _ => plain (unitW s op k (cmdN ws) i a)

/-- The value a source code names (Table 3.12). -/
def srcVal (ls : List Nat) (k : Nat) (outs : List Nat) (c : Nat) : Nat :=
  if c = 0 then 0 else if c ≤ 3 then ls.getD (c - 1) 0 else if c = 4 then k else outs.getD (c - 8) 0

/-- Stages from stage j on: the outputs so far, and the flags. -/
def runStages (s : State) (q : Nat) (ws pat : List Word) (ds : Descs) (i : Nat) (ls : List Nat) : Nat → Nat → List Nat → Nat → Except Bool (List Nat × Nat)
  | 0, _, outs, fl => .ok (outs, fl)
  | fuel + 1, j, outs, fl => do
    let v (k : Nat) := srcVal ls (cmdK ws) outs (patSrc pat j k)
    let (o, f) ← runUnit s q ws ds i (patUnit pat j) (v 0) (v 1) (v 2)
    runStages s q ws pat ds i ls fuel (j + 1) (outs ++ [o]) (fl ||| f)

/-- Element i of a command: its stores and flags, or its fault (R82, R86). The stores of S0 stand before those of S1, so that S1's value stays where both store to one word (DESIGN CHOICE, log entry 50). -/
def runElement (s : State) (q : Nat) (ws pat : List Word) (ds : Descs) (i : Nat) : Except Bool (List VStore × Nat) := do
  let ls ← (List.range 3).mapM fun l => if patLoads pat l then readElem s q ds (cmdDesc ws l) i else .ok 0
  let (outs, fl) ← runStages s q ws pat ds i ls (patStages pat) 0 [] 0
  let st ← (List.range 2).mapM fun k =>
    if patEn pat k then storeElem s q ds (cmdDesc ws (3 + k)) i (srcVal ls (cmdK ws) outs (patStoreSrc pat k)) else .ok []
  return (st.flatten, fl)

/-- Elements i, i+1, … of a segment, up to the first that faults (R87, R90). -/
def runElements (s : State) (q : Nat) (ws pat : List Word) (ds : Descs) : Nat → Nat → List VStore → Nat → List VStore × Nat × Option (Nat × Bool)
  | 0, _, st, fl => (st, fl, none)
  | fuel + 1, i, st, fl =>
    match runElement s q ws pat ds i with
    | .error p => (st, fl, some (i, p))
    | .ok (x, f) => runElements s q ws pat ds fuel (i + 1) (st ++ x) (fl ||| f)

end Sys2Proof.Machine
end

