-- ==== Sys2Proof/Machine/Vector.lean ====
section
/-! DEFINITION. The vector engine's queues, fetch, segments, waves, completion, and the service of pipes (Chapter 3; R433 to R436). -/
namespace Sys2Proof.Machine
open Sys2Proof

/-! Pushes -/

/-- Entries pushed and not yet completed (VE_QSTATn.DEPTH). -/
def VQueue.depth (q : VQueue) : Nat := q.waiting.length + q.prog.length

/-- Outcomes of a push (Table 3.2). -/
inductive Push where
  | accepted | disabled | protect | misaligned | full
  deriving DecidableEq, Repr

/-- The word VISSUE pushes for an outcome (R258). -/
def Push.code : Push → Nat
  | .accepted => 0 | .disabled => 1 | .protect => 2 | .misaligned => 3 | .full => 4

/-- The outcome of a push, by the checks of Table 3.2 in their order; a queue that flushes refuses with FULL (R93). -/
def pushOutcome (s : State) (q ring addr : Nat) : Push :=
  if !s.qEnable q then .disabled
  else if ring > s.qRing q then .protect
  else if addr % 16 ≠ 0 then .misaligned
  else if (s.queue q).depth ≥ 256 ∨ (s.queue q).flushing then .full
  else .accepted

/-- A push: its outcome, and the entry at the queue's tail where it is accepted (R64). Any push leaves IDLE (R345). -/
def pushVE (s : State) (q ring addr role : Nat) (host : Option HostRef) : Push × State :=
  let o := pushOutcome s q ring addr
  let s := leaveIdle s
  if o = .accepted then
    (o, s.updQueue q fun v => { v with waiting := v.waiting ++ [(⟨BitVec.ofNat 36 addr, role, host⟩ : VEntry)], pushed := v.pushed + 1 })
  else (o, s)

/-! Fetch -/

/-- Completion statuses of vector commands (Table 3.6). -/
inductive VStatus where
  | done | empty | doneTrap | badCrc | badReserved | badPattern | badOp | badClass | badDesc | cmdWindow | windowFault | poisoned | aborted
  deriving DecidableEq, Repr

def VStatus.code : VStatus → Nat
  | .done => 0x0000 | .empty => 0x0001 | .doneTrap => 0x0002 | .badCrc => 0x0010 | .badReserved => 0x0011 | .badPattern => 0x0012
  | .badOp => 0x0013 | .badClass => 0x0014 | .badDesc => 0x0015 | .cmdWindow => 0x0016 | .windowFault => 0x0020 | .poisoned => 0x0021
  | .aborted => 0x0030

/-- The 16 words at a command address, as internal addresses. -/
def cmdWords (a : Addr) : List Int := (List.range 16).map fun i => ((a.toNat + i : Nat) : Int)

/-- Reserved fields of a command are zero and CREC is not 0xFFFE (Table 3.3). -/
def cmdReservedOk (ws : List Word) : Bool :=
  wordAt ws 0 % 16 == 0 && wordAt ws 6 % 256 == 0 && (List.range 5).all (fun i => wordAt ws (9 + i) < 4096) && cmdCrec ws != 0xFFFE

/-- The unit operations of a command suit its pattern (Table 3.4, check 7). -/
def cmdOpsOk (ws pat : List Word) : Bool :=
  [1, 2, 3, 4, 5, 6, 7].all fun u =>
    if (patUnits pat).contains u then cmdOp ws u != 0 && opDefined u (cmdOp ws u) else cmdOp ws u == 0

/-- The checks of Table 3.4 on a fetched command: the status that ends it, with FAULT. -/
def fetchCheck (s : State) (q : Nat) (a : Addr) (ws : List Word) : Option (VStatus × Nat) :=
  let pat := s.pattern (cmdPattern ws)
  if !accessOk s q (cmdWords a) false then some (.cmdWindow, 0)
  else if crc16Words (ws.take 15) ≠ wordAt ws 15 then some (.badCrc, 0)
  else if !cmdReservedOk ws then some (.badReserved, 0)
  else if cmdN ws = 0 then some (.empty, 0)
  else if !patValid pat then some (.badPattern, 0)
  else if cmdClass ws < s.qClass q ∨ ((patUnits pat).contains 7 ∧ cmdClass ws ≠ 0) then some (.badClass, 0)
  else if !cmdOpsOk ws pat then some (.badOp, 0)
  else match descFault s ws pat with
    | some (r, slot, d) => some (.badDesc, r * 4096 + slot * 256 + 65536 * d)
    | none => none

/-- The table slots that a W operation of a command names (R150). -/
def cmdSlotsW (ws : List Word) : List Nat :=
  let slot := cmdK ws % 16
  if cmdOp ws 7 = 1 then [slot] else if cmdOp ws 7 = 2 ∨ cmdOp ws 7 = 3 then [slot / 2 * 2, slot / 2 * 2 + 1] else []

/-- The slots a build writes (R149). -/
def Build.slots (b : Build) : List Nat := if b.pair then [b.slot / 2 * 2, b.slot / 2 * 2 + 1] else [b.slot]

/-- Whether a builder is writing, or waits to write, one of the slots (R150). -/
def slotsBusy (s : State) (l : List Nat) : Bool :=
  s.ve.builds.any fun b => match b with | some x => x.slots.any l.contains | none => false

/-- A fetched command. Its words are read as they are stored, poisoned or not: Table 3.6 gives POISONED to element loads only, and the checks of Table 3.4 decide (DESIGN CHOICE, log entry 50). -/
def fetchedCmd (s : State) (q : Nat) (e : VEntry) : VCmd :=
  let ws := (List.range 16).map fun i => memRead s (e.addr.toNat + i)
  let base : VCmd := ⟨e, ws, s.pattern (cmdPattern ws), none, 0, 0, [], [], [], 0, 0, none, 0⟩
  match fetchCheck s q e.addr ws with
  | some (st, f) => { base with final := some (wd st.code), faultVal := BitVec.ofNat 32 f }
  | none => base

/-- Whether a queue's accesses wait for the state store: writes are queued there, which every channel serves first, and a window of the queue reaches it (R58) (DESIGN CHOICE, log entry 54). -/
def storeWaits (s : State) (q : Nat) : Bool := !s.memc.ssq.isEmpty && (s.qWins q false ++ s.qWins q true).any fun w => decide (w.1 < ssAddr 0 + s.ssWords) && decide (ssAddr 0 ≤ w.2)

/-- The fetch of a queue's next command (R65, R69), once the command before it has completed; a stopped or flushing queue fetches none, and a command that names a slot under write waits (R150) (DEDUCED, log entry 45). A poisoned word among the command's own is reported as an uncorrectable error (R440) (DESIGN CHOICE, log entry 50). -/
def execCommandFetch (qi : QueueId) (s : State) : Out :=
  let v := s.queue qi.val
  match v.waiting with
  | [] => ok s
  | e :: rest =>
    if dozing s ∨ storeWaits s qi.val ∨ v.stopped ∨ v.flushing ∨ v.prog ≠ [] then ok s else
    let c := fetchedCmd s qi.val e
    if c.final = none ∧ slotsBusy s (cmdSlotsW c.words) then ok s else
    let s := if (cmdWords e.addr).any (fun a => poisoned s a.toNat) then logEv s 0x1002 .action 5 else s
    ok (s.updQueue qi.val fun v => { v with waiting := rest, prog := v.prog ++ [c] })

/-! Table builders -/

/-- The slots that a drive command names (R150). -/
def DriveCmd.slots (d : DriveCmd) : List Nat :=
  let slot := bitsN d.k.toNat 3 0
  if d.op = 0 then [] else if d.op = 1 then [slot] else [slot / 2 * 2, slot / 2 * 2 + 1]

/-- Segments of a drive command: E elements in each of its lines (Table 5.12), 256 to a segment (R87). -/
def DriveCmd.segs (d : DriveCmd) : Nat := divCeil (d.lines * (d.k.toNat / 2 ^ 20)) 256
/-- Every segment of a drive command has run, and none is to run again: its codes stand in the transmit ring. -/
def DriveCmd.ran (d : DriveCmd) : Bool := decide (d.segs ≤ d.nextSeg) && d.replay.isEmpty
/-- Whether a drive command covers a line. -/
def DriveCmd.covers (d : DriveCmd) (y : Nat) : Bool := decide (d.y ≤ y) && decide (y < d.y + d.lines)

/-- Commands of the dispatcher complete: they leave its list and count in VE_CMD_COUNT (Table 3.19). -/
def endDriveCmds (s : State) (p : DriveCmd → Bool) : State :=
  let s := s.regSet Reg.VE_CMD_COUNT ((s.reg Reg.VE_CMD_COUNT 2 + (s.disp.drives.filter p).length) % 4294967296) 2
  { s with disp := { s.disp with drives := s.disp.drives.filter fun d => !p d } }

/-- Slots named by a command between its fetch and its completion, the dispatcher's drive commands among them (R150). -/
def namedSlots (s : State) : List Nat := (s.ve.queues.flatMap fun v => v.prog.flatMap fun c => cmdSlotsW c.words) ++ s.disp.drives.flatMap DriveCmd.slots

/-- The slots that a builder writes. -/
def buildingSlots (s : State) : List Nat := s.ve.builds.flatMap fun b => match b with | some x => x.slots | none => []

/-- The free slot that a build takes, the even one of a free pair: the next in rotation on its course. -/
def freeSlot (s : State) (b : Build) : Option Nat :=
  let used := namedSlots s ++ buildingSlots s
  let from_ := (s.course b.course).slotNext
  if b.pair then ((List.range 8).map fun i => ((from_ + 1) / 2 + i) % 8 * 2).find? fun i => !used.contains i && !used.contains (i + 1)
  else ((List.range 16).map fun i => (from_ + i) % 16).find? fun i => !used.contains i

/-- The drive commands of the slot whose commands were issued first complete, where all of them have run: their codes stand in the transmit rings (R180) (DESIGN CHOICE, log entry 35). -/
def retireDrives (s : State) : State :=
  match s.disp.drives.find? (fun d => d.op ≠ 0 && s.disp.drives.all fun e => !e.slots.any d.slots.contains || e.ran) with
  | none => s
  | some d => endDriveCmds s fun e => e.slots.any d.slots.contains

/-- An idle builder takes the build that waits first, into a free slot; where none is free, once the oldest drive commands have completed (R149, R150, R180). -/
def startBuild (s : State) (b : Nat) : State :=
  match s.ve.builds.getD b none, s.ve.buildQ with
  | none, x :: rest =>
    let s := if (freeSlot s x).isNone then retireDrives s else s
    match freeSlot s x with
    | none => s
    | some i => { s with ve := { s.ve with builds := s.ve.builds.set b (some { x with slot := i }), buildQ := rest } }.updCourse x.course
        fun c => { c with slotNext := (i + (if x.pair then 2 else 1)) % 16 }
  | _, _ => s

/-- Idle builders take the builds that wait, in order. -/
def startBuilds (s : State) : State := startBuild (startBuild s 0) 1

/-! Segments and waves -/

/-- Segments of a command (R87). -/
def VCmd.segs (c : VCmd) : Nat := divCeil (cmdN c.words) 256
/-- The segment after the last of the current wave. -/
def VCmd.waveEnd (c : VCmd) : Nat := min c.segs (32 * (c.wave + 1))
/-- The lowest faulting element known, with poison. -/
def VCmd.fault (c : VCmd) : Option (Nat × Bool) := minBy (·.1) (c.bufs.filterMap (·.fault))
def VCmd.usesD (c : VCmd) : Bool := (patUnits c.pat).contains 5

/-- Whether a queue's oldest command has an unstarted segment that may start: no fault is known, its wave has one, and the queue is neither paused nor flushing (R88, R90, R93, R94) (DESIGN CHOICE, log entry 2). R89 lets the engine start loads of wave k + 1 before wave k has committed where no footprint meets; the model never does, which changes no result (DESIGN CHOICE, log entry 53). -/
def startable (v : VQueue) : Option VCmd :=
  match v.prog with
  | [] => none
  | c :: _ => if c.final = none ∧ !v.paused ∧ !v.flushing ∧ c.fault = none ∧ c.nextSeg < c.waveEnd then some c else none

/-- Pipes that are active and not in their built-in test. -/
def servingPipes (s : State) : List Nat := s.ve.active.filter fun p => !s.ve.testing.contains p
/-- Pipes neither active nor retired (VE_STAT.SPARES). -/
def allSpares (s : State) : List Nat := (List.range 34).filter fun p => !s.ve.active.contains p && !s.ve.retired.contains p
/-- Spare pipes that are not in their built-in test. -/
def sparePipes (s : State) : List Nat := (allSpares s).filter fun p => !s.ve.testing.contains p

/-- The pipe that runs an unstarted segment: with D, a free table-reciprocal pipe when one serves (R92). -/
def pipeFor (s : State) (usesD : Bool) (p : Nat) : Nat :=
  if !usesD then p else
  match [0, 1, 2, 3, 32, 33].find? (servingPipes s).contains with
  | some x => x
  | none => p

/-- A segment that is to run again (R433): of a queue's oldest command, or of a command of the dispatcher's by its place in the list; its class, whether it uses D, and the pipes it erred on. -/
structure Replay where
  drive : Bool
  at_   : Nat
  seg   : Nat
  cls   : Nat
  usesD : Bool
  erred : List Nat
  deriving DecidableEq, Repr

/-- The segments to run again, the highest class first. -/
def replays (s : State) : List Replay :=
  let ds := s.disp.drives.zipIdx.flatMap fun (d, i) => d.replay.map fun r => (⟨true, i, r.1, 0, false, r.2⟩ : Replay)
  let vs := (List.range 16).flatMap fun q => match (s.queue q).prog with
    | [] => []
    | c :: _ => if storeWaits s q then [] else c.replay.map fun r => (⟨false, q, r.1, cmdClass c.words, c.usesD, r.2⟩ : Replay)
  sortBy (fun a b => a.cls ≤ b.cls) (ds ++ vs)

/-- Whether a pipe may run a segment again: not one it erred on, and a serving pipe only where no idle spare can (R433). -/
def mayReplay (s : State) (p : Nat) (r : Replay) : Bool :=
  !r.erred.contains p && ((sparePipes s).contains p || (sparePipes s).all r.erred.contains)

/-- A segment to replay that pipe p may take. -/
def replayFor (s : State) (p : Nat) : Option Replay := (replays s).find? (mayReplay s p)

/-- The pipe that runs a replay: with D, a table-reciprocal pipe when one is free, an idle spare first (R433). -/
def replayPipe (s : State) (r : Replay) (p : Nat) : Nat :=
  if !r.usesD then p else
  match (([32, 33, 0, 1, 2, 3].filter (sparePipes s).contains) ++ ([0, 1, 2, 3, 32, 33].filter (servingPipes s).contains)).find? (!r.erred.contains ·) with
  | some x => x
  | none => p

/-- The place of the dispatcher's oldest command with an unstarted segment. -/
def driveWork (s : State) : Option Nat := s.disp.drives.findIdx? fun d => decide (d.nextSeg < d.segs)

/-- The class of the segment that a queue could start; 4 where it has none. Number 16 stands for the dispatcher's commands, all of class DRIVE (R63, R180) (DESIGN CHOICE, log entry 35). -/
def startClass (s : State) (q : Nat) : Nat :=
  if q = 16 then (if (driveWork s).isSome then 0 else 4) else
  if storeWaits s q then 4 else
  match startable (s.queue q) with | some c => cmdClass c.words | none => 4

/-- The queue whose segment is taken next: the highest class, then round robin among the queues of that class, from the queue after the last that it served (R92). -/
def pickQueue (s : State) : Option Nat :=
  match (List.range 4).find? fun cl => (List.range 17).any fun q => startClass s q == cl with
  | none => none
  | some cl => ((List.range 17).map fun i => (s.ve.rr.getD cl 15 + 1 + i) % 17).find? fun q => startClass s q == cl

/-- A pipe that takes another segment has passed the checks of the one before (R433). -/
def passChecks (s : State) (p : Nat) : State :=
  { s with disp := { s.disp with drives := s.disp.drives.map fun (d : DriveCmd) => { d with bufs := d.bufs.filter (·.2 != p) } }
           ve := { s.ve with last := s.ve.last.filter (·.1 != p) } }

/-- Segment `seg` of the dispatcher's command at place i run by pipe p: W's codes join the port's transmit ring once the pipe's checks have passed (R432, R433) (DESIGN CHOICE, log entry 35). -/
def runDrive (s : State) (i seg p : Nat) (upd : DriveCmd → DriveCmd) : State :=
  let s := passChecks s p
  { s with disp := { s.disp with drives := s.disp.drives.modify i fun d => upd { d with bufs := d.bufs ++ [(seg, p)] } } }

/-- Segment `seg` of a queue's oldest command run by pipe p: loads read memory as it stands, stores stay in the buffer (R87, R88). The first segment copies the descriptors as they then are (R78); one made invalid since the check at fetch is used as it stands, unchecked (DESIGN CHOICE, log entry 50). -/
def runSegment (s : State) (q seg p : Nat) (upd : VCmd → VCmd) : State :=
  let s := passChecks s p
  match (s.queue q).prog with
  | [] => s
  | c :: rest =>
    let ds := match c.descs with | some d => d | none => copyDescs s c.words c.pat
    let first := 256 * seg
    let n := min 256 (cmdN c.words - first)
    let (st, fl, f) := runElements s q c.words c.pat ds n first [] 0
    let b : SegBuf := ⟨seg, p, st, BitVec.ofNat 7 fl, f⟩
    let c := upd { c with descs := some ds, bufs := c.bufs ++ [b] }
    let s := s.updQueue q fun v => { v with prog := c :: rest }
    { s with ve := { s.ve with last := (p, q, seg) :: s.ve.last } }

/-- The pipes that run segments of classes other than DRIVE: the latest segment of each, until it commits, is discarded by an error, or gives way to the next. -/
def slowPipes (s : State) : List Nat :=
  (s.ve.last.filter fun e => match (s.queue e.2.1).prog with
    | c :: _ => cmdClass c.words != 0 && c.bufs.any fun b => b.seg == e.2.2 && b.pipe == e.1
    | [] => false).map (·.1)

/-- Whether throttle keeps a segment of a class from a pipe: 16 others run such segments already (Table 12.7) (DEDUCED, log entry 39). -/
def throttled (s : State) (p cls : Nat) : Bool := s.power.throttle && cls != 0 && !(slowPipes s).contains p && decide (16 ≤ (slowPipes s).length)

/-- The next unstarted segment of a queue's oldest command, or of the dispatcher's (R92); builds that wait for a slot may then start. -/
def takeFrom (s : State) (q p : Nat) : State :=
  if q = 16 then
    match driveWork s with
    | none => s
    | some i =>
      let s := runDrive s i ((s.disp.drives.map (·.nextSeg)).getD i 0) p fun d => { d with nextSeg := d.nextSeg + 1 }
      startBuilds { s with ve := { s.ve with rr := s.ve.rr.set 0 16 } }
  else
    match startable (s.queue q) with
    | none => s
    | some c =>
      if throttled s (pipeFor s c.usesD p) (cmdClass c.words) then s else
      let s := runSegment s q c.nextSeg (pipeFor s c.usesD p) fun c => { c with nextSeg := c.nextSeg + 1 }
      { s with ve := { s.ve with rr := s.ve.rr.set (cmdClass c.words) q } }

/-- A segment run again, which RAS_REPLAYS counts (R433, R447). -/
def takeReplay (s : State) (r : Replay) (p : Nat) : State :=
  if r.drive then startBuilds (runDrive (s.regSatInc Reg.RAS_REPLAYS) r.at_ r.seg p fun d => { d with replay := d.replay.filter (·.1 != r.seg) })
  else if throttled s (replayPipe s r p) r.cls then s
  else runSegment (s.regSatInc Reg.RAS_REPLAYS) r.at_ r.seg (replayPipe s r p) fun c => { c with replay := c.replay.filter (·.1 != r.seg) }

/-- A pipe takes its next segment (R92): a replay ahead of unstarted segments of its class or lower (R433), else by class and round robin. An idle spare pipe takes replays alone; in DOZE the engine has no clock (Table 12.1). -/
def execSegmentRun (p : PipeId) (s : State) : Out :=
  let serving := (servingPipes s).contains p.val
  if s.ve.engFault ∨ dozing s ∨ (!serving ∧ !(sparePipes s).contains p.val) then ok s else
  let pick := if serving then pickQueue s else none
  let pickClass := match pick with | some q => startClass s q | none => 4
  match (replayFor s p.val).filter fun r => decide (r.cls ≤ pickClass) with
  | some r => ok (takeReplay s r p.val)
  | none => match pick with
    | some q => ok (takeFrom s q p.val)
    | none => ok s

/-- The stores of a segment performed in element order (R88). -/
def commitStores (s : State) (st : List VStore) : State :=
  let s := st.foldl (fun s e => memWriteMask s e.addr e.val e.mask) s
  -- units wholly written lose their poison, whatever parts the stores write them in (R41, R48)
  let mask (a : Nat) : Word := (st.filter (·.addr == a)).foldl (fun m e => m ||| e.mask) 0
  { s with poison := s.poison.filter fun u => !((List.range (eccSize u)).all fun i => mask (u + i) == 0xFFFF) }

/-- The buffers of a command in segment order. -/
def VCmd.sorted (c : VCmd) : List SegBuf := sortBy (fun a b => a.seg ≤ b.seg) c.bufs

/-- A command's state after its buffers below segment `lim` have committed. -/
def commitBelow (s : State) (c : VCmd) (lim : Nat) : State × VCmd :=
  let bs := c.sorted.filter (·.seg < lim)
  (bs.foldl (fun s b => commitStores s b.stores) s,
    { c with bufs := c.bufs.filter fun b => lim ≤ b.seg, fpf := bs.foldl (fun f b => f ||| b.flags) c.fpf })

/-- Status of a command whose last segment has committed (R71). -/
def doneStatus (c : VCmd) : VStatus := if cmdFpte c.words ∧ c.fpf.toNat &&& (flIV ||| flDZ ||| flOF) ≠ 0 then .doneTrap else .done

/-- The wave of a queue's oldest command commits once every load of it has completed (R88); a fault ends the command before its segment (R90), a flush after the segments that ran (R93), and where both wait the fault gives the status (DESIGN CHOICE, log entry 50). -/
def execWaveCommit (qi : QueueId) (s : State) : Out :=
  let v := s.queue qi.val
  match v.prog with
  | [] => ok s
  | c :: rest =>
    if dozing s ∨ storeWaits s qi.val ∨ c.final.isSome then ok s else
    let put (s : State) (c : VCmd) : Out := ok (s.updQueue qi.val fun v => { v with prog := c :: rest })
    match c.fault with
    | some (f, poison) =>
      if c.replay.any (fun r => r.1 < f / 256) then ok s else
      let (s, c) := commitBelow s c (f / 256)
      let s := if poison then logEv s 0x1002 .action 5 else s
      put s { c with bufs := [], replay := [], doneEl := 256 * (f / 256), faultVal := BitVec.ofNat 32 f,
                     final := some (wd (if poison then VStatus.poisoned else .windowFault).code) }
    | none =>
      if c.replay ≠ [] then ok s
      else if v.flushing then
        let (s, c') := commitBelow s c c.nextSeg
        put s { c' with doneEl := min (256 * c.nextSeg) (cmdN c.words), final := some (wd VStatus.aborted.code) }
      else if c.nextSeg < c.waveEnd then ok s
      else
        let (s, c') := commitBelow s c c.waveEnd
        let d := min (256 * c.waveEnd) (cmdN c.words)
        if c.waveEnd = c.segs then put s { c' with doneEl := d, final := some (wd (doneStatus c').code) }
        else put s { c' with doneEl := d, wave := c.wave + 1 }

/-! Completion -/

/-- The 8 words of a completion record (Table 3.5). -/
def recordWords (s : State) (c : VCmd) (st : Word) : List Word :=
  [st, wd c.fpf.toNat] ++ wordsOfNat 2 c.faultVal.toNat ++ wordsOfNat 2 c.doneEl ++ wordsOfNat 2 s.time.toNat

/-- Whether a final status cannot trust CREC and IRQ (R73); an aborted command that was never read intact counts with them (DEDUCED, log entry 45). -/
def untrusted (c : VCmd) (st : Word) : Bool :=
  st == wd VStatus.cmdWindow.code || st == wd VStatus.badCrc.code || crc16Words (c.words.take 15) != wordAt c.words 15

/-- Whether a status is a fault status (R92). -/
def isFaultStatus (st : Word) : Bool := 0x10 ≤ st.toNat && st.toNat ≤ 0x21

/-- The completion record of a command written, or lost (R70, R73, R74), with its address (0 where none). One window must grant all 8 words: a record that straddles two windows, each of which grants its part, is lost, and so is one of a ring 2 or 3 queue in a state plane (DESIGN CHOICE, log entry 50). -/
def writeRecord (s : State) (q : Nat) (c : VCmd) (st : Word) : State × Nat :=
  let crec := if untrusted c st then 0xFFFE else cmdCrec c.words
  if crec = 0xFFFF then (s, 0) else
  let a := s.reg (Reg.VE_QCBASE + 4 * q) 3 % 2 ^ 36 + 8 * crec
  if accessOk s q ((List.range 8).map fun i => ((a + i : Nat) : Int)) true then (memWrites s a (recordWords s c st), a)
  else (logEv (s.regSatInc Reg.VE_CREC_LOST 1) 0x2101 .action 2 q [q, crec], a)

/-- A host VECTOR command's part in a completed vector command (R382): counts, and the completion once every pushed command has completed. `prog` counts commands not yet completed, `started` of the batch pushed or refused is told by `stopped`. -/
def vectorDone (s : State) (h : HostRef) (st : Word) : State :=
  let s := s.updTaken h fun t => { t with prog := t.prog - 1, bad := t.bad + b2n (0x10 ≤ st.toNat) }
  match s.takenAt h with
  | some t => if t.prog = 0 ∧ t.pushLeft = 0 then postCompletion s h (if t.stopped then .permission else .ok) 0 t.bad else s
  | none => s

/-- The oldest command of a queue, once ended, writes its record and delivers its interrupt or trap to the issuing role (R66, R70 to R74) (DEDUCED, log entry 45). The trap goes by the status DONE_TRAP: a command that ends with a fault or ABORTED raises none for the flags of its committed elements (DESIGN CHOICE, log entry 50). -/
def execCommandComplete (qi : QueueId) (s : State) : Out :=
  let v := s.queue qi.val
  match v.prog with
  | [] => ok s
  | c :: rest =>
    match c.final with
    | none => ok s
    | some st =>
      if dozing s ∨ storeWaits s qi.val then ok s else
      let (s, a) := writeRecord s qi.val c st
      let s := s.regWrapInc Reg.VE_CMD_COUNT
      let trap := st == wd VStatus.doneTrap.code
      let s := if trap || untrusted c st || cmdIrq c.words then raiseInt s c.entry.role 0x11 (16 * b2n trap + qi.val) a else s
      let s := s.updQueue qi.val fun v =>
        { v with prog := rest, completed := v.completed + 1, stopped := v.stopped || (isFaultStatus st && s.qStop qi.val),
                 flushing := v.flushing && !rest.isEmpty }
      match c.entry.host with
      | some h => ok (vectorDone s h st)
      | none => ok s

/-! Flush, restart, pause -/

/-- A command that ends without starting (R93). -/
def abortedCmd (s : State) (q : Nat) (e : VEntry) : VCmd :=
  let ws := if accessOk s q (cmdWords e.addr) false then (List.range 16).map fun i => memRead s (e.addr.toNat + i) else List.replicate 16 0
  ⟨e, ws, [], none, 0, 0, [], [], [], 0, 0, some (wd VStatus.aborted.code), 0⟩

/-- The flush of a queue (R93). Commands that have not started end with ABORTED; the one in progress ends after the segments it has run. -/
def flushQueue (s : State) (q : Nat) : State :=
  let v := s.queue q
  let prog := v.prog.map fun c => if c.final.isNone ∧ c.nextSeg = 0 then { c with final := some (wd VStatus.aborted.code) } else c
  let prog := prog ++ v.waiting.map (abortedCmd s q)
  s.updQueue q fun v => { v with waiting := [], prog := prog, stopped := false, flushing := !prog.isEmpty }

/-- A write of 1 to VE_QCTRLn.FLUSH reaches its boundary. -/
def execQueueFlush (q : QueueId) (s : State) : Out := ok (flushQueue s q.val)

/-- A write of 1 to VE_QCTRLn.RESTART: STOPPED clears (R92). -/
def restartQueue (s : State) (q : Nat) : State := s.updQueue q fun v => { v with stopped := false }

/-- A write of 1 to VE_QCTRLn.RESTART reaches its boundary. -/
def execQueueRestart (q : QueueId) (s : State) : Out := ok (restartQueue s q.val)

/-- A write of VE_QCTRLn.PAUSE (R94). -/
def pauseQueue (s : State) (q : Nat) (on : Bool) : State :=
  (s.regSetF (Reg.VE_QCTRL + 4 * q) 13 13 (b2n on)).updQueue q fun v => { v with paused := on }

/-- A write of VE_QCTRLn.PAUSE reaches its segment boundary. -/
def execQueuePause (q : QueueId) (on : Bool) (s : State) : Out := ok (pauseQueue s q.val on)

/-! Pipes -/

/-- 24 hours in AON ticks. -/
def dayTicks : Nat := 24 * 3600 * 32768

/-- Errors of a pipe in the last 24 h (RAS_PIPEERRp.E24). -/
def pipeE24 (s : State) (p : Nat) : Nat :=
  (s.ve.errs.filter fun e => e.1 == p && decide (s.aon.tick.toNat < e.2 + dayTicks)).length

/-- A pipe retired: a spare takes its place, one outside its built-in test first, or the engine runs with fewer (R435, R436). -/
def retirePipe (s : State) (p : Nat) : State :=
  if s.ve.retired.contains p then s else
  let wasActive := s.ve.active.contains p
  let s := { s with ve := { s.ve with active := remN s.ve.active p, retired := s.ve.retired ++ [p], testing := remN s.ve.testing p } }
  if !wasActive then s else
  match (sparePipes s ++ allSpares s).head? with
  | some x => logEv { s with ve := { s.ve with active := s.ve.active ++ [x] } } 0x2002 .masked 2 p
  | none =>
    let s := logEv s 0x2003 .degraded 2 p [s.ve.active.length]
    if s.ve.active.isEmpty then logEv { s with ve := { s.ve with engFault := true } } 0x2010 .stop 2 else s

/-- A pipe's error counts rise, and it leaves service for its test or for good (R435). -/
def chargePipe (s : State) (p : Nat) : State :=
  let k := Reg.RAS_PIPEERR + p
  let s := s.regSetF k 7 0 (satTo 255 (s.regF k 7 0 + 1))
  let s := { s with ve := { s.ve with errs := s.ve.errs ++ [(p, s.aon.tick.toNat)], testing := addN s.ve.testing p } }
  if pipeE24 s p ≥ 2 then retirePipe s p else s

/-- The pipes that a segment has erred on, with one more. -/
def addErred (l : List (Nat × List Nat)) (seg p : Nat) : List Nat := (match l.find? (·.1 == seg) with | some r => r.2 | none => []) ++ [p]

/-- A segment that is to run again is logged with its queue (0xFFFF for the dispatcher's commands), the pipe is charged, and the fourth pipe of one segment is an engine fault, after which it does not run again (R433 to R435). -/
def chargeReplay (s : State) (p q seg n : Nat) : State :=
  if 4 ≤ n then let s := chargePipe s p; logEv { s with ve := { s.ve with engFault := true } } 0x2010 .stop 2
  else chargePipe (logEv s 0x2001 .masked 2 p [p, q, seg % 65536]) p

/-- A pipe errs on a segment of the dispatcher's command at place i: it runs again (R432, R433). -/
def driveError (s : State) (i seg p : Nat) : State :=
  let e := match s.disp.drives[i]? with | some d => addErred d.erred seg p | none => [p]
  let s := { s with disp := { s.disp with drives := s.disp.drives.modify i fun d =>
    { d with bufs := d.bufs.filter (·.1 != seg), replay := d.replay ++ [(seg, e)], erred := d.erred.filter (·.1 != seg) ++ [(seg, e)] } } }
  chargeReplay s p 0xFFFF seg e.length

/-- The segment of the dispatcher's commands that pipe p ran last and has not passed its checks on: place and segment. -/
def driveSeg (s : State) (p : Nat) : Option (Nat × Nat) :=
  s.disp.drives.zipIdx.findSome? fun (d, i) => (d.bufs.find? (·.2 == p)).map fun b => (i, b.1)

/-- A pipe's checks fail: its segment is discarded and replayed elsewhere, and the pipe is charged (R433 to R435). -/
def execPipeError (p : PipeId) (s : State) : Out :=
  match driveSeg s p.val with
  | some (i, seg) => ok (driveError s i seg p.val)
  | none =>
  match s.ve.last.find? (·.1 == p.val) with
  | none => ok (chargePipe s p.val)
  | some (_, q, seg) =>
    let s1 := { s with ve := { s.ve with last := s.ve.last.filter (·.1 != p.val) } }
    match (s.queue q).prog with
    | [] => ok (chargePipe s1 p.val)
    | c :: rest =>
      if !c.bufs.any (fun b => b.seg == seg && b.pipe == p.val) then ok (chargePipe s1 p.val) else
      let erred := addErred c.erred seg p.val
      let c := { c with bufs := c.bufs.filter (·.seg != seg), replay := c.replay ++ [(seg, erred)],
                        erred := c.erred.filter (·.1 != seg) ++ [(seg, erred)] }
      ok (chargeReplay (s1.updQueue q fun v => { v with prog := c :: rest }) p.val q seg erred.length)

/-- The end of a pipe's built-in test (R435): a pipe that fails it is a hard fault and retires. -/
def execPipeBuiltinTestDone (p : PipeId) (pass : Bool) (s : State) : Out :=
  let s := { s with ve := { s.ve with testing := remN s.ve.testing p.val } }
  if pass then ok s else ok (retirePipe (s.regSetF (Reg.RAS_PIPEERR + p.val) 15 15 1) p.val)

end Sys2Proof.Machine
end

