-- ==== Sys2Proof/Machine/Dispatcher.lean ====
section
/-! DEFINITION. The dispatcher's operations (Chapter 6): rectangles, requests, admission, buckets, spans, take-overs, splices, parking, lost regions, recovery and the journal image. -/
namespace Sys2Proof.Machine
open Sys2Proof

/-! Rectangles -/

/-- The overlap of two rectangles. -/
def Rect.inter (a b : Rect) : Option Rect :=
  let x0 := max a.x b.x
  let y0 := max a.y b.y
  let x1 := min (a.x + a.w) (b.x + b.w)
  let y1 := min (a.y + a.h) (b.y + b.h)
  if x0 < x1 ∧ y0 < y1 then some ⟨x0, y0, x1 - x0, y1 - y0⟩ else none

def Rect.meets (a b : Rect) : Bool := (a.inter b).isSome
def Rect.has (a : Rect) (q : Nat × Nat) : Bool := a.x ≤ q.1 && q.1 < a.x + a.w && a.y ≤ q.2 && q.2 < a.y + a.h

/-- X ∖ N in at most four pieces, empty ones not formed (R185 step 2): above, below, left, right. -/
def Rect.cut (x n : Rect) : List Rect :=
  match x.inter n with
  | none => [x]
  | some i =>
    ([⟨x.x, x.y, x.w, i.y - x.y⟩, ⟨x.x, i.y + i.h, x.w, (x.y + x.h) - (i.y + i.h)⟩,
      ⟨x.x, i.y, i.x - x.x, i.h⟩, ⟨i.x + i.w, i.y, (x.x + x.w) - (i.x + i.w), i.h⟩] : List Rect).filter fun r => r.w ≠ 0 && r.h ≠ 0

/-- First group and group count of a rectangle's window (R21). -/
def Rect.groups (r : Rect) : Nat × Nat := (r.x / 8, divCeil (r.x + r.w) 8 - r.x / 8)

/-! Regions -/

def State.region (s : State) (id : Nat) : Option Region := s.disp.regions.find? (·.id == id)
def State.updRegion (s : State) (id : Nat) (f : Region → Region) : State :=
  { s with disp := { s.disp with regions := s.disp.regions.map fun r => if r.id == id then f r else r } }
/-- The regions that a slate already has keep the set they were formed with (R141, R154). -/
def keepSets (s : State) (p : Nat) (r : ResSet) : State :=
  { s with disp := { s.disp with regions := s.disp.regions.map fun q => if q.port.val == p && q.own.isNone then { q with own := some r } else q } }
def State.dropRegion (s : State) (id : Nat) : State :=
  { s with disp := { s.disp with regions := s.disp.regions.filter (·.id != id) } }
def State.setRegions (s : State) (l : List Region) : State := { s with disp := { s.disp with regions := l } }
def State.regionsOn (s : State) (p : Nat) : List Region := s.disp.regions.filter (·.port.val == p)

/-- Whether a region is a piece parked for another (R185 step 1). -/
def Region.isPiece (r : Region) : Bool := r.parkN.isSome
/-- Open: its pixels are its own, from admission until its write-back has committed (Table 6.1). -/
def Region.isOpen (r : Region) : Bool := r.st != .done && r.st != .waiting && !r.isPiece
/-- Counts against R22: open, or closed and still in the journal image (R192). -/
def Region.counts (r : Region) : Bool := !r.isPiece
/-- Still to end for its request (R169, R190). -/
def Region.live (r : Region) : Bool := r.isOpen && !r.lost

/-- The run of a region; for a RECOVER run the interrupted one. -/
def Region.run (r : Region) : Run := ⟨r.mode, r.tb, r.ab, r.inv, if r.kind = .recover then r.rkind = .chained else r.kind = .chained⟩
/-- What a region's RECOVER run nulls (R155): the canonical run of its FRAME and LINE (R194). -/
def Region.base (r : Region) : RecBase := ⟨r.run, r.frame, r.line, 0, none⟩
/-- Frames of the RECOVER run of a region (R156). -/
def Region.recFrames (r : Region) (st : ResSet) : Nat := r.base.frames st r.rect.y r.rect.h
/-- A region's run stands at boundary 0 of a run not begun: its pixels are in their state S. -/
def Region.atZero (r : Region) : Bool := r.st == .admitted || r.st == .parked || (r.st == .running && (r.kind == .recover || (r.frame == 0 && r.line.isNone && !r.cur)))
/-- The boundary after the frame in progress, or reached (DEDUCED, log entry 33). -/
def Region.nb (r : Region) : Nat := (if r.kind = .recover then r.rframe else r.frame) + b2n r.cur

/-- The set of a region's slate: as it was formed with, where a MODE_LOAD has replaced a mode since (R141). -/
def Region.set (s : State) (r : Region) : Option ResSet := (s.setOf r.port.val).map fun st => r.own.getD st
/-- The set that goes on record with a region whose slate has modes of MODE_LOAD, so that its run can still be nulled by it (R154) (DESIGN CHOICE, log entry 56). -/
def Region.kept (s : State) (r : Region) : Option ResSet := if r.own.isSome then r.own else (s.setOf r.port.val).filter (!·.modes.isEmpty)
/-- Frames of a region's run. -/
def Region.frames (s : State) (r : Region) : Nat := match r.set s with | some st => r.run.frames st | none => 0

/-- A new region id. -/
def State.newId (s : State) : Nat × State := (s.disp.nextId + 1, { s with disp := { s.disp with nextId := s.disp.nextId + 1 } })

/-- Open regions of a slate that a rectangle overlaps. -/
def State.overlaps (s : State) (p : Nat) (r : Rect) : List Region := (s.regionsOn p).filter fun x => x.isOpen && x.rect.meets r

/-- Whether a region has a record: RUNNING, PARKED, RECOVERING, CLOSING, closed and not yet durable, or lost; an ADMITTED region has none. A take-over changes the image only when its splice writes are durable: until then the piece parked for another region stands for the region that was cut, and the regions that carry on the run have no record of their own (R192). -/
def Region.inImage (r : Region) : Bool :=
  if r.under.isSome then false else
  if r.lost then true else
  if r.isPiece then r.orig.isSome && !r.splDur else
  match r.st with
  | .running | .recovering | .closing | .done => true
  | .parked => true
  | _ => false

/-- Whether the current span of a region is its last (R185, R188). -/
def lastSpan (s : State) (r : Region) : Bool := r.st == .running && r.kind != .recover && r.spanEnd == r.frames s && r.frames s != 0

/-- Whether a take-over will cut a region: not one that closes or runs its last span, whose end is awaited (R185, Table 6.4). -/
def cuttable (s : State) (x : Region) : Bool := !x.isPiece && x.st != .closing && x.st != .done && !lastSpan s x

/-- The most pieces that a rectangle is in at once while it is cut along others, one after the other (R185, R187). -/
def cutPeak (x : Rect) (ts : List Rect) : Nat :=
  (ts.foldl (fun a t => let l := a.1.flatMap (·.cut t); (l, max a.2 l.length)) ([x], 1)).2

/-- Rectangles in the order admitted, each cut along those after it. -/
def laterCuts : List Rect → List Rect
  | [] => []
  | t :: ts => ts.foldl (fun l u => l.flatMap (·.cut u)) [t] ++ laterCuts ts

/-- The pieces that take-overs add to a region, its takers in the order admitted: a taker that another takes over in its turn cuts it whole, or in its own pieces where those come first (R185, R187). -/
def cutAdds (s : State) (x : Region) (takers : List Rect) : Nat :=
  if cuttable s x then max (cutPeak x.rect takers) (cutPeak x.rect (laterCuts takers)) - 1 else 0

/-- Regions cut whose record is still in the journal image and that no region carries on: their record counts while it is there (R192). -/
def imageOnly (l : List Region) : List Nat :=
  (l.filterMap fun x => if x.splDur then none else x.orig.map (·.1)).foldl (fun a o => if l.any (·.under == some o) then a else addN a o) []

/-- Regions that count on a slate, with the pieces that take-overs still to come will add, those of a new region's rectangle among them (R22, R187, R192) (DEDUCED, log entry 33). -/
def State.countOn (s : State) (p : Nat) (new : Option Rect := none) : Nat :=
  let l := s.regionsOn p
  let takers (x : Region) : List Rect :=
    (sortBy (fun a b => decide (a.order ≤ b.order)) (l.filter fun n => n.waitsFor.contains x.id)).map (·.rect) ++ (new.filter fun r => x.isOpen && x.rect.meets r).toList
  ((l.filter (·.counts)).map fun x => 1 + cutAdds s x (takers x)).foldl (· + ·) 0 + (imageOnly l).length + b2n new.isSome
/-- Regions that count in the device. -/
def State.countAll (s : State) : Nat := ((List.range 64).map fun p => s.countOn p).foldl (· + ·) 0

/-! Requests -/

def State.updRequest (s : State) (id : Nat) (f : Request → Request) : State :=
  { s with disp := { s.disp with requests := s.disp.requests.map fun q => if q.id == id then f q else q } }
def State.request (s : State) (id : Nat) : Option Request := s.disp.requests.find? (·.id == id)

/-- Roof positions with their ports: (position, port if an enabled port names it). -/
def State.positions (s : State) : List (Geom × Option PortId) :=
  (List.range 64).map fun k => (planGeom s.boot.plan k, (List.finRange 64).find? fun p => let w := planPort s.boot.plan p.val; bitN w 15 && w % 64 == k)

/-- The parts of a rectangle of the roof, one for each slate position it touches (R166): the port and the rectangle on its slate. -/
def State.parts (s : State) (r : Rect) : List (Option PortId × Rect) :=
  s.positions.filterMap fun (g, p) =>
    if g.w = 0 then none else
    (r.inter ⟨g.x, g.y, g.w, g.h⟩).map fun i => (p, ⟨i.x - g.x, i.y - g.y, i.w, i.h⟩)

/-- Whether the slate of a port can take a request of a mode: present, drivable and holding the mode (R19, R129, R166 check 2). -/
def State.slateTakes (s : State) (p : PortId) (mode : Option Nat) : Bool :=
  let t := s.port p.val
  t.drivable && t.slate.isSome && setValid s p.val &&
    match mode, s.setOf p.val with
    | some m, some st => holdsMode st m
    | none, _ => true
    | _, none => false

/-- Whether the state of the start lets slate commands through: none does in SAFE-PLAN and SAFE-DRIVE (Table 15.3). -/
def slatesServed (s : State) : Bool := s.boot.outcome != .safePlan && s.boot.outcome != .safeDrive

/-- The checks of Table 6.2 on a rectangle and a mode (no mode for RENDER, R379): the status that refuses it. -/
def admitCheck (s : State) (r : Rect) (mode : Option Nat) : Option Status :=
  let ps := s.parts r
  let g := sectionBody s.boot.plan 0x01
  if !slatesServed s || !(ps.all fun e => match e.1 with | some p => s.slateTakes p mode | none => false) then some .noSlate
  else if r.w = 0 ∨ r.h = 0 ∨ wordAt g 0 < r.x + r.w ∨ wordAt g 1 < r.y + r.h ∨ ps = [] then some .badRegion
  else none

/-- The status of a request's completion (R169). -/
def Request.status (q : Request) (now : Nat) : Status :=
  if q.lostS then .slateLost else if q.cancelS then .cancelled else if q.mergedS then .merged
  else match q.deadline with | some d => if d < now then .late else .ok | none => .ok

/-- HOLD and CANCEL commands that wait on a request, once their effect is in place (R188). A HOLD waits until every region is parked, or has ended. -/
def settleHolds (s : State) (id : Nat) : State :=
  match s.request id with
  | none => s
  | some q =>
    let parked := s.disp.regions.all fun r => r.req != id || !r.live || (r.st == .parked && (r.splDur || s.memc.ssLost))
    if q.waiting || !parked then s else
    let s := s.updRequest id fun q => { q with watch := q.watch.filter (·.1 == false) }
    (q.watch.filter (·.1)).foldl (fun s w => postCompletion s w.2 .ok) s

/-- A request ends when its last region has: its completion is posted, then those of the commands that waited on it (R169, R188). -/
def finishRequest (s : State) (id : Nat) : State :=
  match s.request id with
  | none => s
  | some q =>
    if q.waiting || s.disp.regions.any (fun r => r.req == id && r.live) then settleHolds s id else
    let s := { s with disp := { s.disp with requests := s.disp.requests.filter (·.id != id) } }
    let s := postCompletion s (q.ring, q.seq) (q.status s.time.toNat) 0 q.formed
    q.watch.foldl (fun s w => postCompletion s w.2 .ok) s

/-! Buckets (R172 to R176) -/

/-- DSP_CAP.WATTS, as taken (Table 6.12). -/
def capWatts (s : State) : Nat := let v := s.regF Reg.DSP_CAP 6 0; if v < 40 then 40 else if v > 120 then 120 else v
/-- The depth of the energy and heat buckets in µJ. -/
def bucketDepth (s : State) : Nat := s.reg Reg.DSP_DEPTH * 1000
/-- The depth of a course's rail bucket in µJ (R173). -/
def railDepth (s : State) (co : Nat) : Nat := s.regF (Reg.DSP_CO_CFG + 8 * co) 4 0 * 100000
def vecoef (s : State) : Nat := s.regF Reg.DSP_COEF 15 8
def lossf (s : State) : Nat := s.regF Reg.DSP_COEF 7 0

/-- Per-frame estimates of P pixels at an ECOEF: energy, heat, rail, in µJ (R172). -/
def estimates (s : State) (px ecoef : Nat) : Nat × Nat × Nat :=
  let e := divCeil (px * (ecoef + vecoef s)) 100000
  (e, divCeil (px * (100 * vecoef s + ecoef * lossf s)) 10000000, divCeil (px * ecoef) 100000)

/-- Pixels of a region that are not HELD (R172). -/
def liveP (s : State) (r : Region) : Nat := ((rectPixels r.rect).filter fun q => !psHeld (s.pixel r.port.val q.1 q.2)).length

/-- A bucket's value as its 48 signed bits hold it (R173). -/
def signed48 (b : Int) : Int := toSigned 48 (ofSigned 48 b)

/-- A bucket's value saturated to the signed 32-bit range, as a register reports it (R173). -/
def report32 (b : Int) : Nat := ofSigned 32 (if b < -2147483648 then -2147483648 else if 2147483647 < b then 2147483647 else b)

/-- Move an amount between the buckets and held: a span's start holds it, an early end gives it back. -/
def holdTolls (s : State) (co : Nat) (e h rl : Int) : State :=
  { s with disp := { s.disp with ebucket := signed48 (s.disp.ebucket - e), hbucket := signed48 (s.disp.hbucket - h), held := s.disp.held + BitVec.ofInt 48 e } }.updCourse co
    fun c => { c with railb := signed48 (c.railb - rl) }

/-- What a region still holds returns to the buckets (R175). -/
def returnTolls (s : State) (r : Region) : State :=
  (holdTolls s (s.courseOf r.port.val) (-(r.heldE : Int)) (-(r.heldH : Int)) (-(r.heldR : Int))).updRegion r.id fun r => { r with heldE := 0, heldH := 0, heldR := 0 }

/-- The identity of R176. -/
def Disp.auditOk (d : Disp) : Bool := d.issued == BitVec.ofInt 48 d.ebucket + d.held + d.spent

/-- The toll audit and its repair (R176, R444). -/
def tollAudit (s : State) : State :=
  if s.disp.auditOk then s else
  let s := raiseRas (logEv ((s.regSetF Reg.DSP_AUDIT 15 15 1).regSetF Reg.RAS_AUDIT 1 1 1) 0x6050 .action 4) 3 0
  let held := BitVec.ofNat 48 ((s.disp.regions.map (·.heldE)).foldl (· + ·) 0)
  let e : Int := bucketDepth s
  { s with disp := { s.disp with ebucket := e, held := held, issued := BitVec.ofInt 48 e + held + s.disp.spent } }

/-! Spans -/

/-- What a span that may start would be: its bands, closing boundary, frames, and per-frame estimates. -/
structure Span where
  tb    : Nat
  ab    : Nat
  fin   : Nat
  n     : Nat
  ef    : Nat
  hf    : Nat
  rf    : Nat
  deriving DecidableEq, Repr

/-- The span that a region starts next (R171, R172); none where its set holds no waveform for it. -/
def nextSpan (s : State) (r : Region) : Option Span :=
  match r.set s with
  | none => none
  | some st =>
    if r.st = .recovering then
      let n := r.recFrames st
      let start := if r.rline == some (r.rect.y + r.rect.h - 1) then r.rframe + 1 else r.rframe
      match r.run.part st r.frame 0 0 with
      | some (w, _, _, _) => let (e, h, rl) := estimates s (liveP s r) w.ecoef; some ⟨r.tb, r.ab, n, n - start, e, h, rl⟩
      | none => none
    else
      let fresh := r.st != .running
      let bands := if fresh then (chooseBands s r.port.val r.rect).2 else (r.tb, r.ab)
      let run : Run := ⟨r.mode, bands.1, bands.2, if fresh then s.invOf (s.courseOf r.port.val) else r.inv, if fresh then r.nkind = .chained else r.kind = .chained⟩
      let b := if fresh then 0 else r.nb
      match run.part st b 0 0 with
      | some (w, _, _, _) => let (e, h, rl) := estimates s (liveP s r) w.ecoef; some ⟨bands.1, bands.2, run.nextMile st b, run.nextMile st b - b, e, h, rl⟩
      | none => none

/-- Whether the buckets let a span start (R174). -/
def fits (s : State) (co : Nat) (x : Span) : Bool :=
  let ge (b : Int) (est depth : Nat) : Bool := decide (((min est depth : Nat) : Int) ≤ b)
  ge s.disp.ebucket (x.n * x.ef) (bucketDepth s) && ge s.disp.hbucket (x.n * x.hf) (bucketDepth s) &&
    ge (s.course co).railb (x.n * x.rf) (railDepth s co)

/-- A region is between spans at the next boundary, short of the end of its run. -/
def Region.between (s : State) (r : Region) : Bool := r.st == .running && r.kind != .recover && r.nb == r.spanEnd && decide (r.nb < r.frames s)

/-- Whether the loop of a port is cracked and unmasked (R333). -/
def cracked (s : State) (p : Nat) : Bool := bitN (s.reg Reg.RL_LOOPCRACK 4) p && !bitN (s.reg Reg.RL_LOOPMASK 4) p

/-- A span stands in the order of R177: its region is not held, cancelled or lost, and has a span still to start. -/
def spanAwaits (s : State) (r : Region) : Bool :=
  !r.lost && !r.isPiece && !r.nxt && !r.holdMark && !r.cancelMk &&
    (r.st == .admitted || (r.st == .parked && r.reason != .hold && r.reason != .loss) || r.between s || (r.st == .recovering && r.spanEnd == 0))

/-- A region whose next span may start, tolls apart (R171, R178, R179, R184, R185 step 5, R333, R441); a slate whose rails do not match its set is not driven (R129). -/
def eligible (s : State) (r : Region) : Bool :=
  let c := s.course (s.courseOf r.port.val)
  spanAwaits s r && r.tgtDur && r.splDur && r.waitsFor.isEmpty &&
    !s.memc.ssLost && !s.disp.noSpans && !serviceLost s && c.rail == .up && !c.offWait && !c.holdOff && !cracked s r.port.val && setValid s r.port.val &&
    !(s.disp.yielding && r.cls == 3)

/-- The order of R177: class, deadline, admission. -/
def spanBefore (a b : Region) : Bool :=
  if a.cls ≠ b.cls then decide (a.cls < b.cls) else
  match a.deadline, b.deadline with
  | some x, some y => if x ≠ y then decide (x < y) else decide (a.order ≤ b.order)
  | some _, none => true
  | none, some _ => false
  | none, none => decide (a.order ≤ b.order)

/-- A starved span, on any course, that stands before this one in the order: it blocks until it has started, also while its own course cannot start it (R177), or until a HOLD, a CANCEL or a loss takes it out of the order (DEDUCED, log entry 33). -/
def blocked (s : State) (r : Region) : Bool := s.disp.regions.any fun q => q.starved && q.id != r.id && spanAwaits s q && spanBefore q r

/-- A span starts: its estimates are held and the region joins the next plan (R174, R179). A fresh run takes its bands and inversion now (R138, R145). -/
def startSpan (s : State) (r : Region) (x : Span) : State :=
  let co := s.courseOf r.port.val
  let s := holdTolls s co (x.n * x.ef : Nat) (x.n * x.hf : Nat) (x.n * x.rf : Nat)
  let fresh := r.st != .running && r.st != .recovering
  let s := if fresh then (chooseBands s r.port.val r.rect).1 else s
  let s := s.setRegions (s.disp.regions.filter fun q => q.parkN != some r.id)
  s.updRegion r.id fun q =>
    let q := { q with spanEnd := x.fin, spanB := x.fin - x.n, ef := x.ef, hf := x.hf, rf := x.rf, heldE := q.heldE + x.n * x.ef, heldH := q.heldH + x.n * x.hf,
                      heldR := q.heldR + x.n * x.rf, starved := false, nxt := true }
    if fresh then { q with st := .running, kind := q.nkind, frame := 0, line := none, rframe := 0, rline := none, wear := false, tb := x.tb, ab := x.ab, inv := s.invOf co }
    else if q.st = .recovering ∧ q.rline = some (q.rect.y + q.rect.h - 1) then { q with rframe := q.rframe + 1, rline := none } else q

/-! Pixels at admission, splices and closes -/

/-- The rectangles that a region still waits to take: of regions not yet cut, and of pieces not yet spliced (R168, R185). -/
def foreignRects (s : State) (r : Region) : List Rect :=
  (s.disp.regions.filter fun x => r.waitsFor.contains x.id && !(x.isPiece && (x.st == .parked || x.st == .admitted))).map (·.rect)

/-- The pixels of a rectangle that are a region's own. -/
def ownPixels (s : State) (r : Region) (within : Rect) : List (Nat × Nat) :=
  let f := foreignRects s r
  (rectPixels within).filter fun q => !f.any (·.has q)

/-- A valid pending target moves into T, and VALID clears (R170). -/
def movePending (s : State) (p x y w : Nat) : State × Nat :=
  match s.pixelIn 0x02 p x y with
  | none => (s, w)
  | some a =>
    let v := (memGet s a).toNat
    if bitN v 15 then (memSet s a (wd (setBitsN v 15 15 0)), setBitsN w 9 5 (bitsN v 9 5)) else (s, w)

/-- OPEN set on pixels that are not HELD, with their pending targets moved into T, and the target write queued (R168). -/
def openPixels (s : State) (p tag : Nat) (px : List (Nat × Nat)) : State :=
  let s := px.foldl (fun s q =>
    let w := s.pixel p q.1 q.2
    if psHeld w then s else
    let (s, w) := movePending s p q.1 q.2 w
    s.setPixel p q.1 q.2 (setBitsN w 14 14 1)) s
  ssQueue s 2 tag (persistWords s p px)

/-- Pixels admitted with S or T ≥ n are driven with hold; one event counts them (R25). -/
def countOutOfRange (s : State) (p : Nat) (px : List (Nat × Nat)) : Nat :=
  match s.setOf p with
  | none => 0
  | some st => (px.filter fun q => let w := s.pixel p q.1 q.2; !psHeld w && (setNStates st.words ≤ psS w || setNStates st.words ≤ psT w)).length

/-- The state that a pixel's S takes when its region is spliced into a mode (R160, R161, R157): σ, or its milestone state for a chained run. -/
def spliceState (st : ResSet) (r : Region) (mode y o n : Nat) (chain : Bool) : Nat :=
  if setNStates st.words ≤ o ∨ setNStates st.words ≤ n ∨ r.atZero then o else
  let m := if r.kind = .recover then r.run.lastMile st (r.base.bound y) else r.frame
  if chain then r.run.stateAt st m o n else (r.run.spliceAt st m o n mode).getD (r.run.stateAt st m o n)

/-- Whether a splice of a region into a mode needs a chained run (R160, R186): for any of its line groups. -/
def needsChain (st : ResSet) (r : Region) (mode : Nat) : Bool :=
  if r.atZero then false else
  if r.kind = .recover then (r.base.groupLines r.rect.y r.rect.h).any fun y => r.run.chains st (r.run.lastMile st (r.base.bound y)) mode
  else r.run.chains st r.frame mode

/-- New S and T for the pixels of a region; OPEN clears where `close`; the words are queued with the priority of target writes under the region's id (R161). -/
def rewritePixels (s : State) (r : Region) (px : List (Nat × Nat)) (f : State → Nat → Nat → Nat → State × Nat) (close : Bool) : State :=
  let p := r.port.val
  let s := px.foldl (fun s q =>
    let w := s.pixel p q.1 q.2
    if psHeld w ∨ !psOpen w then s else
    let (s, w) := f s q.1 q.2 w
    s.setPixel p q.1 q.2 (if close then withTrim s p q.1 q.2 (setBitsN w 14 14 0) else w)) s
  ssQueue s 2 r.id (persistWords s p px)

/-- The event of R25 for `n` pixels out of range; none where there are none. -/
def noteOutOfRange (s : State) (n : Nat) : State := if n = 0 then s else logEv s 0xB001 .note 3 0xFF [n % 65536, n / 65536]

/-- The splice writes of a take-over (R161, R185 step 4): S becomes the splice-in state, T the pending target; pixels then out of range are counted for the region that takes them (R25) (DEDUCED, log entry 33). -/
def splicePiece (s : State) (r : Region) : State :=
  match r.set s, (r.parkN.bind s.region).filter (!·.cancelMk) with
  | some st, some n =>
    let s := rewritePixels s r (ownPixels s r r.rect) (fun s x y w =>
      let w := setBitsN w 4 0 (spliceState st r n.mode y (psS w) (psT w) (n.nkind = .chained))
      movePending s r.port.val x y w) false
    noteOutOfRange (s.updRegion r.id fun q => { q with st := if q.st = .admitted then .admitted else .parked, reason := .milestone, splDur := false, cur := false })
      (countOutOfRange s r.port.val (ownPixels s r r.rect))
  | some st, none =>
    -- N was cancelled: S := its milestone state, T := S, OPEN cleared (R189)
    let s := rewritePixels s r (ownPixels s r r.rect) (fun s _ y w =>
      let v := spliceState st r r.mode y (psS w) (psT w) true
      (s, setBitsN (setBitsN w 4 0 v) 9 5 v)) true
    s.updRegion r.id fun q => { q with st := .parked, reason := .milestone, splDur := false, cur := false, cancelMk := true }
  | none, _ => s

/-- A region parks at its milestone, with the splice writes of its own mode made at once and T unchanged (R188). -/
def parkRegion (s : State) (r : Region) (why : ParkReason) : State :=
  match r.set s with
  | none => s
  | some st =>
    if why = .loss then s.updRegion r.id fun q => { q with st := .parked, reason := .loss, holdMark := false, splDur := false } else
    if r.atZero then s.updRegion r.id fun q => { q with st := .parked, reason := why, holdMark := false } else
    let chain := needsChain st r r.mode
    let s := rewritePixels s r (rectPixels r.rect) (fun s _ y w => (s, setBitsN w 4 0 (spliceState st r r.mode y (psS w) (psT w) chain))) false
    s.updRegion r.id fun q => { q with st := .parked, reason := why, holdMark := false, splDur := false, nkind := if chain then .chained else .run }

/-- A RECOVER run has ended: each pixel stands at its milestone m_g and the region continues by splice into its target (R157). -/
def endRecover (s : State) (r : Region) : State :=
  match r.set s with
  | none => s
  | some st =>
    let chain := needsChain st r r.mode
    let s := rewritePixels s r (rectPixels r.rect) (fun s _ y w => (s, setBitsN w 4 0 (spliceState st r r.mode y (psS w) (psT w) chain))) false
    s.updRegion r.id fun q => { q with st := .running, spanEnd := 0, splDur := false, nkind := if chain then .chained else .run }

/-- A region is cancelled at the milestone it stands at: S := T := s_i, OPEN cleared, made durable (R188, Table 6.6). -/
def cancelAt (s : State) (r : Region) : State :=
  match r.set s with
  | none => s
  | some st =>
    let s := rewritePixels s r (ownPixels s r r.rect) (fun s _ y w =>
      let v := spliceState st r r.mode y (psS w) (psT w) true
      (s, setBitsN (setBitsN w 4 0 v) 9 5 v)) true
    (returnTolls s r).updRegion r.id fun q => { q with st := .parked, reason := .milestone, cancelMk := true, splDur := false, holdMark := false }

/-- Pixels of a region that is gone pass to the regions that waited for them: OPEN set, pending target taken, target write queued (R185, Table 6.4), those out of range counted (R25) (DEDUCED, log entry 33). -/
def passPixels (s : State) (x : Region) : State :=
  (s.disp.regions.filter fun n => n.waitsFor.contains x.id).foldl (fun s n =>
    let s := s.updRegion n.id fun n => { n with waitsFor := remN n.waitsFor x.id }
    match s.region n.id, x.rect.inter n.rect with
    | some n, some i =>
      let px := ownPixels s n i
      let s := (openPixels s n.port.val n.id px).updRegion n.id fun n => { n with tgtDur := false }
      noteOutOfRange s (countOutOfRange s n.port.val px)
    | _, _ => s) s

/-- The user trims take effect at once while no region of the course is open (R319). -/
def trimIdle (s : State) (co : Nat) : State :=
  if s.disp.regions.any fun r => (r.isOpen || r.isPiece) && s.courseOf r.port.val == co then s else applyTrims s co

/-- A region has ended without a write-back: its pixels pass on, it leaves the list with the pieces that were parked for it and are spliced, its request may end, and trims that only its course waited with take effect (R319). -/
def endRegion (s : State) (r : Region) : State :=
  let s := s.setRegions (s.disp.regions.filter fun q => !(q.parkN == some r.id && q.splDur))
  trimIdle (finishRequest (passPixels (s.dropRegion r.id) r) r.req) (s.courseOf r.port.val)

/-! Take-over (R185, R186, R189) -/

/-- Whether a region is at a milestone at the planned frame, and so can be taken over (R184, R185 step 1). -/
def takeable (s : State) (r : Region) : Bool :=
  !r.lost && !r.isPiece && !r.nxt && !r.cancelMk &&
    match r.st with
    | .admitted | .parked => true
    | .running => r.kind == .recover || r.between s
    | .recovering => r.spanEnd != 0 && r.nb == r.spanEnd
    | _ => false

/-- Pieces parked for a region that is cut follow its pixels (R185, first of the two cases): each piece is cut along the heirs, which wait for their parts in its place; splice writes under way go under the new ids. -/
def reparkPieces (s : State) (xid : Nat) (heirs : List (Nat × Rect)) : State :=
  (s.disp.regions.filter fun q => q.parkN == some xid).foldl (fun s q =>
    let parts := heirs.filterMap fun (h, r) => (q.rect.inter r).map fun i => (h, i)
    let spliced := q.st == .parked || q.st == .admitted
    let s := ssDrop (s.dropRegion q.id) 2 q.id
    let s := s.setRegions (s.disp.regions.map fun m => { m with waitsFor := remN m.waitsFor q.id })
    let co := s.courseOf q.port.val
    let old := (s.course co).now.filter (·.rid == q.id)
    let s := s.updCourse co fun c => { c with now := c.now.filter (·.rid != q.id) }
    (parts.zipIdx).foldl (fun s e =>
      let (id, s) := s.newId
      let z (v : Nat) : Nat := if e.2 = 0 then v else 0
      let q' := { q with id := id, rect := e.1.2, parkN := some e.1.1, heldE := z q.heldE, heldH := z q.heldH, heldR := z q.heldR }
      let s := s.setRegions (s.disp.regions ++ [q'])
      let s := s.updCourse co fun c => { c with now := c.now ++ old.map fun it => { it with rid := id, ef := z it.ef, hf := z it.hf, rf := z it.rf } }
      let s := if spliced ∧ !q.splDur then ssQueue s 2 id (persistWords s q.port.val (ownPixels s q' q'.rect)) else s
      if q.splDur then s else s.updRegion e.1.1 fun n => { n with waitsFor := addN n.waitsFor id }) s) s

/-- N takes over its overlap with X: X is cut into pieces that carry on its run, and X ∩ N is parked for N (R185 steps 1 to 4). Target and splice words of X that are not yet durable are queued again under the pieces. -/
def takeOver (s : State) (nid xid : Nat) : State :=
  match s.region nid, s.region xid with
  | some n, some x =>
    match x.rect.inter n.rect, x.set s with
    | some i, some st =>
      let atM := if x.cur then { x with frame := if x.kind = .recover then x.frame else x.frame + 1, cur := false } else x
      let s := if needsChain st atM n.mode then s.updRegion nid fun n => { n with nkind := .chained } else s
      let rects := x.rect.cut n.rect
      let (pid, s) := s.newId
      let base := { x with nxt := false }
      let keep (r : Rect) : List Nat := x.waitsFor.filter fun w => match s.region w with | some q => q.rect.meets r | none => false
      let piece := { base with id := pid, rect := i, parkN := some nid, splDur := false, holdMark := false, cancelMk := false, waitsFor := keep i, orig := if x.st = .admitted then none else some (xid, x.rect) }
      let (s, ids) := rects.foldl (fun (a : State × List (Nat × Rect)) r => let (id, s) := a.1.newId; (s, a.2 ++ [(id, r)])) (s, [])
      let pieces := ids.map fun (id, r) => { base with id := id, rect := r, ef := 0, hf := 0, rf := 0, heldE := 0, heldH := 0, heldR := 0, waitsFor := keep r, under := if x.st = .admitted then x.under else some xid }
      let co := s.courseOf x.port.val
      let dup (l : List PlanItem) : List PlanItem := l.flatMap fun it => if it.rid = xid then { it with rid := pid } :: ids.map fun e => { it with rid := e.1, ef := 0, hf := 0, rf := 0 } else [it]
      let remap (m : Region) : Region :=
        if m.waitsFor.contains xid then
          { m with waitsFor := remN m.waitsFor xid ++ (ids.filter fun e => e.2.meets m.rect).map (·.1) ++ (if m.id = nid then [pid] else []) }
        else m
      let s := s.setRegions (((s.disp.regions.filter (·.id != xid)).map remap) ++ pieces ++ [piece])
      let s := if x.tgtDur && x.splDur then s else pieces.foldl (fun s q => ssQueue s 2 q.id (persistWords s q.port.val (ownPixels s q q.rect))) (ssDrop s 2 xid)
      let s := s.updCourse co fun c => { c with now := dup c.now }
      let s := { s with ve := { s.ve with builds := s.ve.builds.map fun b => b.map fun b => if b.rids.contains xid then { b with rids := b.rids ++ [pid] ++ ids.map (·.1) } else b,
                                          buildQ := s.ve.buildQ.map fun b => if b.rids.contains xid then { b with rids := b.rids ++ [pid] ++ ids.map (·.1) } else b } }
      let s := if x.cur then s else match s.region pid with | some q => splicePiece s q | none => s
      let s := reparkPieces s xid ((nid, i) :: ids)
      let s := if rects.isEmpty then s else logEv s 0xB060 .note 4 x.port.val
      let s := s.updRequest x.req fun q => { q with mergedS := true }
      finishRequest s x.req
    | _, _ => s
  | _, _ => s

/-- The take-overs due at a planning point, in admission order of the regions that take (R185); none once the state store is lost, when no splice write is made (R441). -/
def doTakeOvers (s : State) (ports : List Nat) : State :=
  if s.memc.ssLost then s else
  let takers := sortBy (fun a b => a.order ≤ b.order) (s.disp.regions.filter fun n => ports.contains n.port.val && !n.waitsFor.isEmpty && !n.lost && !n.isPiece)
  takers.foldl (fun s n =>
    match s.region n.id with
    | none => s
    | some n => n.waitsFor.foldl (fun s xid =>
        match s.region n.id, s.region xid with
        | some n, some x => if n.waitsFor.contains xid && takeable s x && x.rect.meets n.rect then takeOver s n.id xid else s
        | _, _ => s) s) s

/-! Milestones -/

/-- A region's last frame is complete: it is CLOSING, and the dispatcher pushes its write-back (R30, R72); one command for its lines, since the spec gives no number (DESIGN CHOICE, log entry 35). -/
def closeRegion (s : State) (r : Region) : State :=
  let s := s.updRegion r.id fun q => { q with st := .closing }
  let d : DriveCmd :=
    { issuer := 0, course := s.courseOf r.port.val, rid := r.id, frame := r.frame, port := r.port.val, y := r.rect.y, lines := r.rect.h, op := 0,
      k := BitVec.ofNat 32 (4 * r.rect.groups.2 * 2 ^ 20), cur := false, nextSeg := 0, bufs := [], replay := [], erred := [] }
  { s with disp := { s.disp with drives := s.disp.drives ++ [d] } }

/-- After a state-store channel is lost, a request completes with CANCELLED once every region of it is parked (R441). -/
def lossCheck (s : State) (req : Nat) : State :=
  if s.disp.regions.any (fun q => q.req == req && q.live && q.st != .parked) then s else
  let s := s.setRegions (s.disp.regions.map fun q => if q.req == req then { q with req := 0 } else q)
  finishRequest (s.updRequest req fun q => { q with cancelS := true }) req

/-- A region that has reached the end of a span, or stands between spans: what its marks and the device's state ask (R171, R178, R188, R325, R441). -/
def settle (s : State) (id : Nat) : State :=
  match s.region id with
  | none => s
  | some r =>
    if r.lost || r.cur || r.nxt then s else
    if r.isPiece then
      if r.st == RState.parked || r.st == RState.admitted then s
      else if s.memc.ssLost then s.updRegion id fun q => { q with st := .parked, reason := .loss }
      else splicePiece s r
    else
    let done := if r.st = .recovering then r.spanEnd ≠ 0 ∧ r.nb ≥ r.spanEnd else r.st = .running ∧ r.kind ≠ .recover ∧ r.nb = r.spanEnd
    if ¬ done then s else
    if r.st = .running ∧ r.nb ≠ 0 ∧ r.nb = r.frames s then closeRegion s r else
    if s.memc.ssLost then lossCheck (parkRegion s r .loss) r.req
    else if r.cancelMk then cancelAt s r
    else if r.holdMark then parkRegion s r .hold
    else if (s.course (s.courseOf r.port.val)).offWait then parkRegion s r .rails
    else if s.disp.yielding ∧ r.cls = 3 then logEv (parkRegion s r .yield) 0x6042 .note 4 r.port.val
    else if r.st = .recovering then endRecover s r
    else s

/-! Codes and lines -/

/-- The drive code of pixel (x, y) in a region's frame in progress (R151, R156). -/
def regionCode (s : State) (st : ResSet) (r : Region) (x y : Nat) : Nat :=
  let w := s.pixel r.port.val x y
  if !r.rect.has (x, y) ∨ psHeld w ∨ !psOpen w then 0 else
  let par := spatialPar r.inv x y
  if r.kind = .recover then
    let n := setNStates st.words
    if n ≤ psS w ∨ n ≤ psT w then 0 else recoverCode (r.base.counts st y (psS w) (psT w) (psTrim w) par) r.rframe
  else r.run.code st r.frame (psS w) (psT w) (psTrim w) par

/-- Whether a region's frame in progress is sent to line y: a resumed RECOVER frame goes only to the lines after RLINE (R194). -/
def Region.drivesLine (r : Region) (y : Nat) : Bool := r.rect.y ≤ y && y < r.rect.y + r.rect.h && !(r.kind == .recover && lineIn y r.rline)

/-- Windows merged where they overlap or touch (R292); the list is in rising order of first group. -/
def mergeWindows : List (Nat × Nat) → List (Nat × Nat)
  | [] => []
  | (g, n) :: rest => mergeFrom g n rest
where
  /-- The window (g, n) grown by those that begin in it or next to it, and the spans that follow. -/
  mergeFrom (g n : Nat) : List (Nat × Nat) → List (Nat × Nat)
    | [] => [(g, n)]
    | (g2, n2) :: rest => if g2 ≤ g + n then mergeFrom g (max (g + n) (g2 + n2) - g) rest else (g, n) :: mergeFrom g2 n2 rest

/-- The regions of a plan on a port, each in the frame planned: a RECOVER frame after one that was resumed goes to every line (R180, R194). -/
def planRegions (s : State) (items : List PlanItem) (p : Nat) : List Region :=
  items.filterMap fun it => match s.region it.rid with
    | some r => if r.port.val = p then some (if r.kind = .recover ∧ it.frame ≠ r.rframe then { r with rline := none } else r) else none
    | none => none

/-- The spans of line y for the regions that drive it (R181, R292). -/
def lineWindows (rs : List Region) (y : Nat) : List (Nat × Nat) :=
  mergeWindows (sortBy (fun a b => a.1 ≤ b.1) ((rs.filter (·.drivesLine y)).map fun r => r.rect.groups))

/-- The three code bytes of a group (R291), each region's by the set that it runs by (R141) (DESIGN CHOICE, log entry 35). -/
def groupBytes (s : State) (rs : List Region) (y g : Nat) : List Byte :=
  let code (j : Nat) : Nat := (rs.filter (·.drivesLine y)).foldl (fun c r => if c ≠ 0 then c else match r.set s with
    | some st => regionCode s st r (8 * g + j) y
    | none => 0) 0
  bytesOfNat 3 ((List.range 8).foldl (fun v j => v + (code j <<< (3 * j))) 0)

/-- The spans of a LINE packet with their code bytes (DESIGN CHOICE, log entry 35). -/
def lineSpans (s : State) (rs : List Region) (y : Nat) : List (Nat × Nat × List Byte) :=
  (lineWindows rs y).map fun (g, n) => (g, n, (List.range n).flatMap fun i => groupBytes s rs y (g + i))

/-- The lines of a frame for a port: those that meet at least one window (R292). -/
def frameLines (s : State) (items : List PlanItem) (p : Nat) : List Nat :=
  let rs := planRegions s items p
  let hi := rs.foldl (fun m r => max m (r.rect.y + r.rect.h)) 0
  (List.range hi).filter fun y => rs.any (·.drivesLine y)

/-- Bytes of the LINE packets of a planned frame (Table 10.3). -/
def lineLoad (s : State) (items : List PlanItem) (p : Nat) : Nat :=
  let rs := planRegions s items p
  (frameLines s items p).foldl (fun a y => let w := lineWindows rs y; a + 10 + 3 * w.length + 3 * w.foldl (fun b e => b + e.2) 0) 0

/-! Lost regions and recovery (R190, R194) -/

/-- The greatest line of a rectangle at or below a line (R305). -/
def lineOf (r : Rect) (l : Option Nat) : Option Nat :=
  match l with
  | none => none
  | some v => if v < r.y then none else some (min v (r.y + r.h - 1))

/-- A region that carries on a run is lost while the image still shows the region cut: every part has its own record from then on, the pixels parked for another region at their milestone (R190, R192) (DEDUCED, log entry 33). -/
def ownRecords (s : State) (r : Region) : State :=
  match r.under.or (r.orig.map (·.1)) with
  | none => s
  | some o => s.setRegions (s.disp.regions.map fun q =>
      if (q.orig.map (·.1)) = some o then { q with orig := some (q.id, q.rect) } else if q.under = some o then { q with under := none } else q)

/-- A region is lost: what it holds returns, its progress is fixed at the last line credited, and it ends for its request with SLATE_LOST (R190). -/
def loseRegion (s : State) (r : Region) (doubtOk : Bool := true) : State :=
  let t := s.port r.port.val
  let co := s.courseOf r.port.val
  let credited := if !r.cur then none else if t.frame.isSome then lineOf r.rect t.credLine else some (r.rect.y + r.rect.h - 1)
  let sent := lineOf r.rect t.sentLine
  let doubt := doubtOk && r.cur && t.frame.isSome && sent != credited
  let s := endDriveCmds (ownRecords (returnTolls s r) r) fun d => d.rid == r.id
  let s := s.updCourse co fun c => { c with plan := c.plan.filter (·.rid != r.id), now := c.now.filter (·.rid != r.id) }
  let s := s.updRegion r.id fun q =>
    let q : Region := { q with lost := true, own := r.kept s, doubt := doubt, cur := false, nxt := false, starved := false, holdMark := false, cancelMk := false, spanEnd := 0, req := 0, parkN := none, orig := none, under := none,
                               kind := if q.st = .admitted then .run else q.kind }
    if q.kind = .recover then { q with rline := if r.cur then (match credited with | some v => some v | none => q.rline) else q.rline }
    else { q with line := credited }
  let s := s.updRequest r.req fun q => { q with lostS := true }
  finishRequest (logEv s 0x4060 .action 4 r.port.val) r.req

/-- Every open region of a slate that is not CLOSING is lost (R190); pieces still to be spliced go with them. -/
def loseSlateRegions (s : State) (p : Nat) : State :=
  let s := ((s.regionsOn p).filter fun r => r.isOpen && r.st != .closing && !r.lost).foldl (fun s r => loseRegion s r) s
  ((s.regionsOn p).filter fun r => r.isPiece && r.st != .parked && !r.lost).foldl (fun s r => loseRegion s r) s

/-- DOUBT resolved by the drive log (R193, R305). -/
def resolveDoubt (r : Region) (lline : Word) : Region :=
  if !r.doubt then r else
  let l := if lline = 0xFFFF then none else lineOf r.rect (some lline.toNat)
  if r.kind = .recover then { r with rline := if l.isSome then l else r.rline, doubt := false } else { r with line := l, doubt := false }

/-- A lost or replayed region joins R177 again: class NORMAL, no deadline, RECOVER from its record, then on to its target (R190, R194). With no frame left to drive there is no RECOVER run and no event (R156). -/
def recoverRegion (s : State) (id : Nat) : State :=
  match s.region id with
  | none => s
  | some r =>
    let r := { r with lost := false, cls := 2, deadline := none, order := s.disp.nextId, req := 0, spanEnd := 0 }
    match r.set s with
    | none => s.updRegion id fun _ => r
    | some st =>
      if r.st = .admitted then s.updRegion id fun _ => r
      else if r.atZero then
        let r := { r with reason := .milestone }
        s.updRegion id fun _ => if r.splDur then { r with st := .running, kind := r.nkind, frame := 0, line := none } else r
      else if r.kind ≠ .recover ∧ r.frame = r.frames s then closeRegion (s.updRegion id fun _ => r) r
      else
        let r := if r.kind = .recover then r else { r with kind := .recover, rkind := r.kind, rframe := 0, rline := none }
        let r := { r with st := .recovering, tgtDur := true, splDur := true, wear := false }
        let n := r.recFrames st
        let start := if r.rline == some (r.rect.y + r.rect.h - 1) then r.rframe + 1 else r.rframe
        let s := s.updRegion id fun _ => r
        if n ≤ start then endRecover s r else logEv s 0xB040 .note 3 r.port.val [r.port.val, r.rect.x, r.rect.y, n]

/-- A record is discarded: EV-0xB041, and OPEN clears with S unchanged (R159, R190). -/
def discardRegion (s : State) (r : Region) : State :=
  let s := (rectPixels r.rect).foldl (fun s q => let w := s.pixel r.port.val q.1 q.2; s.setPixel r.port.val q.1 q.2 (setBitsN w 14 14 0)) s
  endRegion (logEv s 0xB041 .action 3 r.port.val) r

/-- The trailer CRC-32 of a resident set (R137). -/
def setTrailer (ws : List Word) : BitVec 32 := BitVec.ofNat 32 (dwordAt ws (setLength ws - 2))

/-- Whether the slate on a region's port, with its resident set, is the one the region names (R159): SETCRC is the trailer of the set in the slate's record, which a MODE_LOAD leaves as it is (DESIGN CHOICE, log entry 56). -/
def sameSlate (s : State) (r : Region) : Bool :=
  match (s.port r.port.val).slate, s.setOf r.port.val with
  | some sl, some st => sl.serial == r.serial && setTrailer st.words == r.setCrc
  | _, _ => false

/-- A slate present on a port resolves the lost regions kept for it: replayed where its serial and set are the record's, discarded otherwise (R159, R190). -/
def resolveLost (s : State) (p : Nat) (ev : Bool) : State :=
  let rs := sortBy (fun a b => if a.rect.y ≠ b.rect.y then a.rect.y ≤ b.rect.y else a.rect.x ≤ b.rect.x) ((s.regionsOn p).filter (·.lost))
  rs.foldl (fun s r =>
    if !sameSlate s r then discardRegion s r else
    let lline := match (s.port p).slate with | some sl => sl.lline | none => 0xFFFF
    let (_, s) := s.newId
    let s := s.updRegion r.id fun q => resolveDoubt q lline
    let s := recoverRegion s r.id
    if ev then logEv s 0x4061 .note 4 p else s) s

/-! The journal image (R191, R192) -/

def jkind : RunKind → JKind
  | .run => .run | .chained => .chained | .recover => .recover
def lineField (l : Option Nat) : Nat := l.getD 0xFFF

/-- The record of a region, for a piece parked for another region that of the region it was cut from, as it was (R192). LINE and RLINE are the last lines credited (R193). -/
def Region.record (s : State) (q : Region) : JRec :=
  let r := match q.orig with | some (i, x) => if q.isPiece then { q with id := i, rect := x } else q | none => q
  let t := s.port r.port.val
  let cred := if !r.cur then none else if t.frame.isSome then lineOf r.rect t.credLine else some (r.rect.y + r.rect.h - 1)
  let sent := lineOf r.rect t.sentLine
  let isRec := r.kind == .recover
  { rid := r.id, port := r.port, mode := r.mode, tb := r.tb, ab := r.ab, inv := r.inv,
    kind := if r.lost then .lost else jkind r.kind,
    doubt := if r.cur then t.frame.isSome && sent != cred else r.doubt,
    frame := r.frame,
    rkind := if isRec then jkind r.rkind else .run,
    fkind := if r.lost then jkind r.kind else .run,
    line := if isRec then lineField r.line else if r.cur then lineField cred else lineField r.line,
    rect := r.rect,
    rframe := if isRec then r.rframe else 0,
    rline := if isRec then (if r.cur && cred.isSome then lineField cred else lineField r.rline) else 0xFFF,
    serial := r.serial, setCrc := r.setCrc, own := q.kept s }

/-- The records of the regions in the image, one for each region that several pieces stand for (R192). -/
def imageRecords (s : State) : List JRec :=
  ((s.disp.regions.filter Region.inImage).map (Region.record s)).foldl (fun a j => if a.any (·.rid == j.rid) then a else a ++ [j]) []

/-- The journal image (R192); while a stop holds it, as the stop fixed it (R193) (DEDUCED, log entry 33). -/
def journalImage (s : State) : List JRec := if s.disp.stopped then s.disp.image else imageRecords s

def JKind.code : JKind → Nat
  | .run => 0 | .chained => 1 | .recover => 2 | .lost => 3

/-- A record's 15 words (Table 6.7). -/
def JRec.words (j : JRec) : List Word :=
  [wd (j.port.val * 1024 + j.kind.code * 256 + j.mode * 16 + j.tb), wd (j.ab * 16384 + j.inv * 4096 + b2n j.doubt * 2048 + j.frame % 2048),
   wd (j.rkind.code * 16384 + j.fkind.code * 4096 + j.line % 4096), wd j.rect.x, wd j.rect.y, wd j.rect.w, wd j.rect.h, wd (j.rframe % 2048), wd (j.rline % 4096)] ++
    wordsOfNat 4 j.serial.toNat ++ wordsOfNat 2 j.setCrc.toNat

/-! Rates -/

/-- A port runs on one downstream lane: a dropped lane is tried again only through DETECT (R302); in OFF no lane is in use (R316). -/
def Port.oneLaneNow (t : Port) : Bool := t.oneLane && t.st != .off

/-- Whether a slate of a course, driven or not, runs its link on one lane, retraining or not (R18, R302). -/
def courseOneLane (s : State) (co : Nat) : Bool := (s.portsOf co).any fun p =>
  let t := s.port p
  t.oneLaneNow && (t.slate.isSome || t.st == .config || t.st == .active || t.st == .retrain)

/-- The rate of a course (R18): the lowest of the nominal rate, the heat rate and 100 Hz while a slate of it runs on one lane; 0 where it is not configured. -/
def courseRate (s : State) (co : Nat) : Nat :=
  let nom := s.regF (Reg.DSP_CO_CFG + 8 * co) 14 8
  let h := (s.course co).heatRate
  let r := if h ≠ 0 ∧ h < nom then h else nom
  if courseOneLane s co ∧ r > 100 then 100 else r

/-- The rate that DSP_COn_STAT reports: that of the latest frame, since the rate changes at frame boundaries alone (R18); before a first frame the one it will have; 0 for a course that is not configured (R197). -/
def rateShown (s : State) (co : Nat) : Nat :=
  if s.regF (Reg.DSP_CO_CFG + 8 * co) 14 8 = 0 then 0 else if (s.course co).rate = 0 then courseRate s co else (s.course co).rate

/-- The nominal period of the rate in effect, in counts of 10 ns. -/
def periodOf (rate : Nat) : Nat := if rate = 0 then 0 else 100000000 / rate

/-- TLINE of a slate of height h (R293): min(65,535, floor((P − 50 µs) / (h × 10 ns))). -/
def tlineOf (rate h : Nat) : Nat := if rate = 0 ∨ h = 0 then 0 else min 65535 ((100000000 - 5000 * rate) / (rate * h))

/-- The mean stretch over the last 16 frames, in 1/1000, or over the frames that have run where they are fewer (R182) (DESIGN CHOICE, log entry 53). -/
def meanStretch (c : Course) : Nat := if c.stretches.isEmpty then 0 else c.stretches.foldl (· + ·) 0 / (100000 * c.stretches.length)

/-- Whether an UPDATE has been taken that no request stands for yet: WAITING (Table 6.1, R348). -/
def updateTaken (s : State) : Bool := s.hif.rings.any fun r => r.taken.any fun t => t.op == 0x30 && !t.started

/-- Whether the registers report the dispatcher idle (DSP_STAT.IDLE, Table 6.11): no region open, lost ones apart (R348), no request waiting, an UPDATE taken and not yet looked at among these (Table 6.1), no frame planned. -/
def dspIdle (s : State) : Bool := !(s.disp.regions.any (·.live)) && !(s.disp.requests.any (·.waiting)) && !updateTaken s && s.courses.all fun c => c.plan.isEmpty && c.now.isEmpty

end Sys2Proof.Machine
end

