-- ==== Sys2Proof/Machine/LinkWire.lean ====
section
/-! DEFINITION. Slate-link packets as bytes (R287 to R290): the downstream packets with their fields and CRC, their lanes, and the checks of an upstream packet. -/
namespace Sys2Proof.Machine
open Sys2Proof

/-- A value in `n` bytes, most significant byte first, as a CRC is sent (R288). -/
def bytesMsb (n v : Nat) : List Byte := (bytesOfNat n v).reverse

/-- Bytes followed by their CRC-16 (R288). -/
def withCrc16 (bs : List Byte) : List Byte := bs ++ bytesMsb 2 (crc16Bytes bs)
/-- Bytes followed by their CRC-32 (R288). -/
def withCrc32 (bs : List Byte) : List Byte := bs ++ bytesMsb 4 (crc32Bytes bs)

/-- The first four bytes of a stream packet (Table 10.4): type and RPL, SSEQ, FTAG. -/
def streamHead (code : Nat) (rpl : Bool) (sseq : Word) (ftag : Byte) : List Byte :=
  bytesOfNat 1 (16 * code + 8 * b2n rpl) ++ bytesOfNat 2 sseq.toNat ++ [ftag]

/-- The bytes of a downstream packet, CRC included (Tables 10.3 and 10.4). -/
def DownPkt.bytes : DownPkt → List Byte
  | .line rpl q t l spans =>
    withCrc32 (streamHead 1 rpl q t ++ bytesOfNat 2 ((spans.length - 1) * 4096 + l) ++
      spans.flatMap (fun (g, n, _) => bytesOfNat 3 (g + n * 512)) ++ spans.flatMap fun (_, _, code) => code)
  | .frameBegin rpl q t tline nlines => withCrc16 (streamHead 2 rpl q t ++ bytesOfNat 2 tline ++ bytesOfNat 2 nlines)
  | .frameEnd rpl q t => withCrc16 (streamHead 3 rpl q t)
  | .bridgeWrite tag addr data => withCrc16 (bytesOfNat 1 (0x40 + tag.toNat) ++ bytesOfNat 3 addr ++ bytesOfNat 1 data.length ++ data)
  | .bridgeRead tag addr len => withCrc16 (bytesOfNat 1 (0x50 + tag.toNat) ++ bytesOfNat 3 addr ++ bytesOfNat 1 len)
  | .ping lanes ptag => withCrc16 (bytesOfNat 1 0x60 ++ bytesOfNat 1 lanes.toNat ++ [ptag])
  | .creditSync reset next => withCrc16 (bytesOfNat 1 0x70 ++ bytesOfNat 1 (b2n reset) ++ bytesOfNat 2 next.toNat)

/-- Bytes dealt over two lanes: the even ones, and the odd ones with a pad byte where the last is missing (R287). -/
def dealBytes : List Byte → List Byte × List Byte
  | [] => ([], [])
  | [a] => ([a], [0])
  | a :: b :: r => let (x, y) := dealBytes r; (a :: x, b :: y)

/-- The bytes that the latest packet of a port puts on D0 and D1 (R287): a PING whole on both lanes; another packet dealt over both, or whole on the lane that is left. -/
def Port.onLanes (t : Port) : List Byte × List Byte :=
  match t.lastSent with
  | none => ([], [])
  | some k =>
    let bs := k.bytes
    match k with
    | .ping _ _ => (bs, bs)
    | _ => if !t.oneLane then dealBytes bs else if t.d0 then (bs, []) else ([], bs)

/-- What a receiver makes of the bytes of an upstream packet (R287 to R290): intact; corrupted, by its length or its CRC; a protocol error alone, by a reserved type or EVENT code; a reserved field that is not 0, which is both. -/
inductive UpCheck where
  | intact | corrupted | protocol | reservedField
  deriving DecidableEq, Repr

/-- The length that the header of an upstream packet implies (Table 10.3); none for a type that never comes up. -/
def upLength (bs : List Byte) : Option Nat :=
  match byteAt bs 0 / 16 with
  | 0x8 => some 9
  | 0x9 => some (5 + byteAt bs 2)
  | 0xA => some 11
  | 0xB => some 6
  | 0xC => some 8
  | _ => none

/-- Whether a reserved field of an upstream packet is not 0: bits [3:0] of byte 0 where they are no tag, FLAGS[7:5] of a STATUS, bits [7:2] of a PONG's second byte (Table 10.4) (DEDUCED, log entry 36). -/
def upReserved (bs : List Byte) : Bool :=
  let type := byteAt bs 0 / 16
  (type != 0x9 && byteAt bs 0 % 16 != 0) || (type == 0xA && byteAt bs 6 / 32 != 0) || (type == 0xC && byteAt bs 1 / 4 != 0)

/-- The checks of an upstream packet, in the order CRC, type, length, reserved fields, EVENT code (DEDUCED, log entry 36). -/
def upCheck (bs : List Byte) : UpCheck :=
  if bs.length < 3 ∨ crc16Bytes bs ≠ 0 then .corrupted else
  match upLength bs with
  | none => .protocol
  | some n =>
    if bs.length ≠ n then .corrupted
    else if upReserved bs then .reservedField
    else if byteAt bs 0 / 16 = 0xB ∧ (byteAt bs 1 = 0 ∨ 4 < byteAt bs 1) then .protocol else .intact

end Sys2Proof.Machine
end

