-- ==== Sys2Proof/Machine/LinkOps.lean ====
section
/-! DEFINITION. The slate link's operations (Chapter 10): sequence order, port states, sessions, replay, bridge transactions and the end of a frame. -/
namespace Sys2Proof.Machine
open Sys2Proof

/-! Sequence numbers (R296) -/

/-- p ≺ q. -/
def seqLt (p q : Word) : Bool := let d := (q - p).toNat; 1 ≤ d && d ≤ 0x7FFF
/-- p ≼ q. -/
def seqLe (p q : Word) : Bool := p == q || seqLt p q

/-- The SSEQ of a stream packet. -/
def DownPkt.sseq : DownPkt → Option Word
  | .line _ q _ _ _ | .frameBegin _ q _ _ _ | .frameEnd _ q _ => some q
  | _ => none

/-- A stream packet as a replay (Table 10.4, RPL). -/
def DownPkt.asReplay : DownPkt → DownPkt
  | .line _ q t l sp => .line true q t l sp
  | .frameBegin _ q t l n => .frameBegin true q t l n
  | .frameEnd _ q t => .frameEnd true q t
  | x => x

/-! Counters and states -/

def portReg (k p : Nat) : Nat := k + 32 * p
/-- A protocol error counted (SL_PROTOn). The slate-link interrupt with reason 0x4 is raised where the bridge reports one, by EVENT, and not here (DESIGN CHOICE, log entry 57). -/
def countProto (s : State) (p : Nat) : State := s.regSatInc (portReg Reg.SL_PROTO p)
/-- A corrupted packet or a NAK counted (SL_CRCERRn). -/
def countCrc (s : State) (p : Nat) : State := s.regSatInc (portReg Reg.SL_CRCERR p)

/-- A port changes state (Table 10.7), with the interrupt of R315; in OFF no lane is in use (Table 10.18). -/
def setPortSt (s : State) (p : Nat) (x : PortState) : State :=
  if (s.port p).st = x then s else
  raiseSl (s.updPort p fun t => { t with st := x, d0 := t.d0 && x != .off, d1 := t.d1 && x != .off, u := t.u && x != .off }) 1 p

/-- A packet leaves the port. -/
def sendPkt (s : State) (p : Nat) (k : DownPkt) : State := s.updPort p fun t => { t with lastSent := some k }

/-- The port sends PING on the lanes named (R301). -/
def sendPing (s : State) (p : Nat) (lanes : BitVec 2) : State :=
  let tag := (s.port p).ptag + 1
  sendPkt (s.updPort p fun t => { t with ptag := tag, pings := t.pings + 1, gap := true }) p (.ping lanes tag)

/-- The lanes that are still good. -/
def Port.lanes (t : Port) : BitVec 2 := BitVec.ofNat 2 (b2n t.d0 + 2 * b2n t.d1)

/-- ACTIVE to RETRAIN (Table 10.7): idle sets, then PING with the lanes that are still good; replay resumes afterwards. -/
def retrain (s : State) (p : Nat) : State :=
  if (s.port p).st = .active then
    sendPing (setPortSt (s.updPort p fun t => { t with resend := [], pings := 0 }) p .retrain) p (s.port p).lanes
  else s

/-- A port back to DETECT: it starts over, with the sends of each SSEQ counted again from 0 (R299). -/
def toDetect (s : State) (p : Nat) : State :=
  setPortSt (s.updPort p fun t => { t with d0 := false, d1 := false, u := false, pings := 0, cfgTries := 0, resend := [], replayBuf := t.replayBuf.map fun e => (e.1, 0) }) p .detect

/-- Packets from ACKED on are to be sent again (R299). -/
def startReplay (s : State) (p : Nat) : State := s.updPort p fun t => { t with resend := t.replayBuf.map (·.1.asReplay) }

/-- A packet resent is counted (SL_REPLAYn); more than 16 within 1 s are logged, and counted anew (Table 10.14) (DEDUCED, log entry 36). -/
def countReplay (s : State) (p : Nat) : State :=
  let now := s.time.toNat
  let recent := (s.port p).replays.filter (now < · + 100000000)
  let s := (s.updPort p fun t => { t with replays := if recent.length < 16 then recent ++ [now] else [] }).regSatInc (portReg Reg.SL_REPLAY p)
  if recent.length < 16 then s else logEv s 0x4010 .masked 6 p

/-- ACKED advances: packets before it leave the replay buffer (R297). -/
def ackTo (s : State) (p : Nat) (a : Word) : State :=
  let keep (k : DownPkt) : Bool := match k.sseq with | some q => !seqLt q a | none => true
  s.updPort p fun t => { t with acked := a, replayBuf := t.replayBuf.filter (keep ·.1), resend := t.resend.filter keep }

/-! Bridge transactions (R304) -/

/-- Waiting transfers take free tags, in order; each is then to be sent. -/
def takeTags (s : State) (p : Nat) : State :=
  (List.range 16).foldl (fun s _ =>
    let t := s.port p
    match t.xfers, (List.range 16).find? (fun g => !t.trans.any (·.tag.toNat == g)) with
    | x :: rest, some g => s.updPort p fun t => { t with xfers := rest, trans := t.trans ++ [(⟨BitVec.ofNat 4 g, x.write, x.addr, x.len, x.data, 0, false, true, false⟩ : Trans)] }
    | _, _ => s) s

/-- Whether a transaction may leave now: only an ACTIVE port carries packets (R301), and while a frame is open one of them goes between two stream packets, replays among these (R297) (DEDUCED, log entry 36). -/
def mayInsert (t : Port) : Bool := t.st == .active && match t.frame with | some f => !(f.began && t.gap) | none => true

/-- The packet of a transaction (Table 10.4). -/
def Trans.packet (x : Trans) : DownPkt := if x.write then .bridgeWrite x.tag x.addr x.data else .bridgeRead x.tag x.addr x.len

/-- Transactions that are to be sent leave, as many as R297 lets. -/
def sendDue (s : State) (p : Nat) : State :=
  (List.range 16).foldl (fun s _ =>
    let t := s.port p
    match t.trans.find? (·.due) with
    | some x => if !mayInsert t then s else
        sendPkt (s.updPort p fun t => { t with gap := true, trans := t.trans.map fun y => if y.tag == x.tag then { y with due := false } else y }) p x.packet
    | none => s) s

/-- Waiting transfers start, and what may be sent is sent. -/
def startXfers (s : State) (p : Nat) : State := sendDue (takeTags s p) p

/-- Transfers join the port's queue. -/
def addXfers (s : State) (p : Nat) (l : List Xfer) : State := startXfers (s.updPort p fun t => { t with xfers := t.xfers ++ l }) p

/-- A transaction sent again (R300). -/
def resendTrans (s : State) (p : Nat) (x : Trans) : State :=
  sendDue (s.updPort p fun t => { t with trans := t.trans.map fun y => if y.tag == x.tag then { y with due := true } else y }) p

/-- The port reads LLINE (R305). -/
def readLLine (s : State) (p : Nat) : State := addXfers s p [⟨false, 0xFF0000, 2, []⟩]

/-- Bytes from an address on, as writes of at most 128 bytes. -/
def writesOf : Nat → Nat → List Byte → List Xfer
  | 0, _, _ => []
  | n + 1, a, bs => if bs.isEmpty then [] else ⟨true, a, (bs.take 128).length, bs.take 128⟩ :: writesOf n (a + 128) (bs.drop 128)

/-! Sessions (R303) -/

/-- The line that a bridge was driving when its rails were cut: the first line sent after the last one credited (R329). -/
def cutLine (s : State) (p : Nat) : Option Nat :=
  match (s.port p).frame with
  | none => none
  | some f => if (s.port p).sentLine.isNone then none else f.all.find? fun y => !f.cred.contains y && !f.lines.contains y

/-- The line that a bridge may still be driving after its frame was dropped: within the line guard of a power-off, or until the line's own time has passed (R323, R329). -/
def guardedLine (s : State) (p : Nat) : Option Nat :=
  let c := s.course (s.courseOf p)
  if c.pathStop || c.rail == .falling || decide (s.time.toNat < (s.port p).guardEnd) then (s.port p).guardLine else none

/-- The frame of a slate ends without it: it counts as complete there (R30). A line that its bridge may still be driving is remembered for a cut path, within the time of a line; on the cut path itself it is known already (R323, R329) (DEDUCED, log entry 37). -/
def dropFrame (s : State) (p : Nat) : State :=
  let guard := if (s.course (s.courseOf p)).hardFault then none else cutLine s p
  (endDriveCmds s fun d => d.port == p && d.cur).updPort p fun t =>
    match t.frame with
    | some f => { t with frame := none, guardLine := guard, guardEnd := s.time.toNat + f.tline }
    | none => t

/-- WM18 has taken the records of this start, and WM20, which replays those whose slate is there in the order of R194, has not begun. -/
def replayDue (s : State) : Bool :=
  let res (n : Nat) : Nat := (s.boot.recs.getD n WmRec.reset).result
  s.boot.outcome == .running && res 18 != 0 && res 18 != 5 && res 20 == 0

/-- Whether lost regions of a port may run now: no replay is still to come, the link is ACTIVE, the slate is there and driven with rails that match its set (R129, R194), and its course has been UP since its latest fault (R190, R328 step 6, R333). -/
def canRecover (s : State) (p : Nat) : Bool :=
  let t := s.port p
  let c := s.course (s.courseOf p)
  !replayDue s && t.st == .active && t.drivable && setValid s p && c.rail != .fault && !c.pathStop && !c.pathLost && !cracked s p

/-- The lost regions of a port that can run do so; those whose line is in doubt wait for LLINE (R305). -/
def tryRecover (s : State) (p : Nat) : State :=
  if !canRecover s p then s else
  if (s.regionsOn p).any (fun r => r.lost && r.doubt) then readLLine s p else resolveLost s p true

/-- A new session: CREDIT_SYNC with RESET = 1 (R299). A frame open on the slate is lost at once, its lines known by the drive log (R303) (DEDUCED, log entry 36). -/
def newSession (s : State) (p : Nat) : State :=
  let t := s.port p
  let s := s.updPort p fun t => { t with acked := t.next, done := t.next, limit := t.next + BitVec.ofNat 16 t.buf, replayBuf := [], resend := [], grace := true, statSeen := false, gap := true,
                                         lastSent := some (.creditSync true t.next) }
  if t.frame.isNone then s else
  let s := loseSlateRegions s p
  tryRecover (logEv (dropFrame s p) 0x4031 .action 6 p) p

/-- CONFIG begins (R303): the same BOOTCNT continues the session, another starts a new one, and is a bridge that has started (Table 12.4 bit 7). -/
def enterConfig (s : State) (p : Nat) : State :=
  let t := s.port p
  let s := setPortSt (s.updPort p fun t => { t with cfgTries := 0 }) p .config
  if t.boot = some t.seenBoot ∧ ¬ t.newSlate then sendPkt (s.updPort p fun t => { t with syncReset := false, gap := true }) p (.creditSync false t.next)
  else
    let s := if t.boot = some t.seenBoot then s else aonEvent s 7
    newSession ((s.updPort p fun t => { t with boot := some t.seenBoot, newSlate := false, syncReset := true }).regSet (portReg Reg.SL_BOOT p) t.seenBoot.toNat) p

/-! The end of a frame on a slate -/

/-- The line audit of a port's frame (R442): each region's planned and credited lines. -/
def lineAudit (s : State) (p : Nat) (f : TxFrame) : State :=
  let rs := planRegions s (s.course (s.courseOf p)).now p
  rs.foldl (fun s r =>
    let planned := f.all.filter r.drivesLine
    let got := planned.filter f.cred.contains
    if planned.length = got.length then s else
    let s := logEv (s.regSetF Reg.RAS_AUDIT 3 3 1) 0xB080 .action 3 p [p, r.rect.x, r.rect.y, lineField (s.port p).credLine]
    tryRecover (loseRegion (raiseRas s 3 0) r false) p) s

/-- FRAME_END is credited: the frame is complete on the slate, and the credit audit and the line audit are made (R30, R442, R443). -/
def frameDone (s : State) (p : Nat) (f : TxFrame) : State :=
  let s := lineAudit s p f
  let t := s.port p
  let s := startXfers (dropFrame s p) p
  if t.done = t.acked ∧ t.acked = t.next then s else
  newSession (raiseRas (logEv (s.regSetF Reg.RAS_AUDIT 2 2 1) 0x4080 .action 6 p [p, t.done.toNat, t.acked.toNat, t.next.toNat]) 3 0) p

/-! Life copies (R311, R312) -/

/-- A life copy's bytes before LCRC (Table 10.12), the less significant byte of each field first, as in LCRC (DESIGN CHOICE, log entry 57). -/
def lifeBody (sl : Slate) (gen : Nat) : List Byte :=
  bytesOfNat 2 0x4C46 ++ bytesOfNat 2 0 ++ bytesOfNat 4 gen ++ bytesOfNat 8 sl.frames ++ bytesOfNat 4 sl.light ++ bytesOfNat 12 0 ++ sl.blocks.flatMap (bytesOfNat 4)

/-- A life copy's bytes (Table 10.12). -/
def lifeCopy (sl : Slate) (gen : Nat) : List Byte := lifeBody sl gen ++ bytesOfNat 4 (crc32Bytes (lifeBody sl gen))

/-- Whether a copy is valid (R312), for a slate of n blocks. -/
def lifeValid (n : Nat) (bs : List Byte) : Bool :=
  bs.length == 0x20 + 4 * n + 4 && fieldBytes bs 0 2 == 0x4C46 && fieldBytes bs 2 2 == 0 && fieldBytes bs 0x14 12 == 0 &&
    fieldBytes bs (0x20 + 4 * n) 4 == crc32Bytes (bs.take (0x20 + 4 * n))

/-- Whether a write goes to the life area (R311). -/
def lifeAddr (write : Bool) (a : Nat) : Bool := write && decide (0xF00000 ≤ a) && decide (a < 0xF80000)
def Xfer.isLife (x : Xfer) : Bool := lifeAddr x.write x.addr
def Trans.isLife (x : Trans) : Bool := lifeAddr x.write x.addr
/-- A chunk of a life copy with no answer to come: not yet sent, or answered as busy. -/
def Trans.idleLife (x : Trans) : Bool := x.isLife && (x.busy || (x.due && x.retries == 0))
/-- A chunk of a life write that has failed: it is not sent again, and its answer, if one comes, changes nothing (R312). -/
def Trans.bury (x : Trans) : Trans := if x.isLife then { x with dead := true, due := false } else x

/-- A chunk of a life write is answered, and LCRC is sent once every other chunk has been; a write that fails, or whose link is lost, is logged and waits for the next period (R312). -/
def lifeChunk (s : State) (p : Nat) (good : Bool) : State :=
  match (s.port p).lifeW with
  | none => s
  | some w =>
    let finish (s : State) : State := match w.host with | some h => s.updTaken h fun t => { t with prog := 2 } | none => s
    if !good then
      finish (logEv (s.updPort p fun t => { t with lifeW := none, xfers := t.xfers.filter (!·.isLife), trans := (t.trans.filter fun x => !x.idleLife).map Trans.bury }) 0x4052 .action 6 p)
    else if w.left ≤ 1 then
      finish ((s.updSlate p fun sl => if w.copyB then { sl with genB := some w.gen } else { sl with genA := some w.gen }).updPort p fun t => { t with lifeW := none })
    else
      let s := s.updPort p fun t => { t with lifeW := some { w with left := w.left - 1 } }
      if w.left = 2 then addXfers s p [w.last] else s

/-- The life counters are written to the copy with the lower GEN, or an invalid one, with GEN one above the other's, and LCRC last (R312); where the link is not ACTIVE the write fails (DEDUCED, log entry 48). -/
def writeLife (s : State) (p : Nat) (host : Option HostRef) : State :=
  match (s.port p).slate with
  | none => s
  | some sl =>
    if (s.port p).lifeW.isSome then s else
    if (s.port p).st ≠ .active then logEv s 0x4052 .action 6 p else
    let (b, gen) := match sl.genA, sl.genB with
      | none, none => (false, 1)
      | none, some g => (false, g + 1)
      | some g, none => (true, g + 1)
      | some x, some y => if x ≤ y then (false, y + 1) else (true, x + 1)
    let gen := gen % 4294967296
    let base := if b then 0xF40000 else 0xF00000
    let body := lifeBody sl gen
    let ws := writesOf 2200 base body
    let last : Xfer := ⟨true, base + body.length, 4, bytesOfNat 4 (crc32Bytes body)⟩
    addXfers (s.updPort p fun t => { t with lifeW := some ⟨b, gen, ws.length + 1, last, host⟩ }) p ws

end Sys2Proof.Machine
end

