-- ==== Sys2Proof/Machine/RailOps.lean ====
section
/-! DEFINITION. The rail die's operations (Chapter 11): output targets, power-on and power-off, fault paths, cracks, front lights and VIN. -/
namespace Sys2Proof.Machine
open Sys2Proof

/-- A rail or loop interrupt, cause 0x17 (R342). -/
def raiseRl (s : State) (reason x : Nat) : State := raiseClass s 0x17 (reason * 4096 + x)

/-- Whether the course's set points are configured (Table 11.11). -/
def courseSet (s : State) (co : Nat) : Bool := s.regF (rlReg Reg.RL_CO_VGH co) 8 0 != 0 && s.regF (rlReg Reg.RL_CO_VGL co) 8 0 != 0

/-- Whether a region of the course is in mid-span at a boundary just reached: its span began before it and ends after it (R319). -/
def midSpan (s : State) (co : Nat) : Bool :=
  s.disp.regions.any fun r => !r.lost && s.courseOf r.port.val == co && (r.st == .running || r.st == .recovering) && decide (r.spanB < r.nb) && decide (r.nb < r.spanEnd)

/-- The user trims take effect at a frame boundary where no region of the course is in mid-span (R319). -/
def trimBoundary (s : State) (co : Nat) : State := if midSpan s co then s else applyTrims s co

/-! Light (R335 to R337) -/

/-- Whether a loop of the course is cracked and unmasked. -/
def courseCracked (s : State) (co : Nat) : Bool := (s.portsOf co).any (cracked s)

/-- Whether a course is known (R336): WM20 has completed for it, nothing recovers and nothing is lost. -/
def courseKnown (s : State) (co : Nat) : Bool :=
  (s.course co).cleared && !(s.disp.regions.any fun r => s.courseOf r.port.val == co && (r.lost || r.st == .recovering))

/-- The conditions of R336 other than EN. -/
def lightAllowed (s : State) (co : Nat) : Bool :=
  courseKnown s co && !courseCracked s co && !s.side.blank && !s.power.vinf && !s.power.tripped && !(s.course co).pathStop && s.power.vinStep == 0

def lightEn (s : State) (co : Nat) : Bool := s.regF (rlReg Reg.RL_CO_LIGHT co) 15 15 == 1

/-- The level of a signal ball. -/
inductive Pin where
  | low | high | hiZ
  deriving DecidableEq, Repr

/-- A main-domain ball driven to a level, or high-impedance until 100 µs after MAIN_PG has risen (R451, R458). -/
def ballOf (s : State) (v : Bool) : Pin := if s.boot.hiZ ≠ 0 then .hiZ else if v then .high else .low

/-- FL_EN of a course (R458). -/
def flEnPin (s : State) (co : Nat) : Pin := ballOf s (s.course co).flEn

/-- FL_PWM of a course (R458): running, or low; low too while DUTY = 0 is in effect (R335). -/
def flPwmPin (s : State) (co : Nat) : Pin := ballOf s ((s.course co).flPwm && (s.course co).dutyEff != 0)

/-- FL_EN and FL_PWM go low where a condition fails; EV-0x5030 once per interval with EN = 1 (R336, R337). -/
def lightCheck (s : State) (co : Nat) : State :=
  if lightEn s co ∧ lightAllowed s co then s.updCourse co fun c => { c with lightHeld := false }
  else
    let s := s.updCourse co fun c => { c with flEn := false, flPwm := false }
    if !lightEn s co then s.updCourse co fun c => { c with lightHeld := false }
    else if (s.course co).lightHeld then s
    else logEv (s.updCourse co fun c => { c with lightHeld := true }) 0x5030 .note 7 co

/-- Every course's light conditions are looked at again. -/
def lightCheckAll (s : State) : State := (List.range 8).foldl lightCheck s

/-! Power-on and power-off (R321 to R326) -/

/-- The VIN-fail threshold in units of 50 mV (RL_VINCFG). -/
def vinThr (s : State) : Nat := 180 + 2 * s.regF Reg.RL_VINCFG 6 0

/-- The VIN monitor may fire again once VIN is 0.3 V above the threshold (R338). -/
def rearmVin (s : State) (vin : Nat) : State := if vinThr s + 6 ≤ vin then { s with power := { s.power with vinLow := false } } else s

/-- The preconditions of a power-on (R322); during a stop, every course stays off (R339). -/
def canPowerOn (s : State) (co : Nat) : Bool :=
  let vin := s.regF Reg.RL_VIN 8 0
  !s.power.vinf && s.power.vinStep == 0 && decide (vinThr s + 10 ≤ vin) && decide (vin ≤ 280) && courseSet s co && !courseCracked s co && decide (toSigned 16 (s.reg Reg.RL_TEMP) < 105 * 16)

/-- The rails that start in a step of Table 11.2, in the numbering of RL_COn_FAULT.RAIL. -/
def stepRails : Nat → List Nat
  | 1 => [1] | 2 => [3, 5, 7] | 3 => [2, 4, 6] | 4 => [8] | 5 => [0] | _ => []

/-- A power-off starts (R323): from RISING, at the step for the highest rail that has begun to rise. One already running goes on. -/
def startPowerOff (s : State) (co : Nat) : State :=
  let c := s.course co
  if c.rail = .falling then s else
  let step := if c.rail = .rising then (match c.step with | 5 => 1 | 4 => 4 | 3 => 5 | 2 => 6 | _ => 7) else 1
  raiseRl (s.updCourse co fun c => { c with rail := .falling, step := step, good := [], onWait := false, offWait := false, dozeUp := false }) 1 co

/-- A request to power a course on (R325, R326). An OFF not yet begun is cancelled. A course of a side-lane RAILS_OFF refuses it (R397), and every course in SAFE-DRIVE (Table 15.3). -/
def requestOn (s : State) (co : Nat) : State :=
  if bitN s.side.railsOff.toNat co ∨ s.boot.outcome = .safeDrive then s else
  match (s.course co).rail with
  | .off => s.updCourse co fun c => { c with onWait := true }
  | .rising => s
  | .up => s.updCourse co fun c => { c with offWait := false, autoOff := false }
  | .falling => s.updCourse co fun c => { c with onAfter := true }
  | .fault => s.updCourse co fun c => { c with onWait := true, retryWait := false }

/-- Parked and admitted regions aside, regions of the course between spans are settled: with an OFF waiting they park with reason RAILS (R325). -/
def settleCourse (s : State) (co : Nat) : State :=
  (s.disp.regions.filter fun r => s.courseOf r.port.val == co).foldl (fun s r => settle s r.id) s

/-- A request to power a course off at its milestones (R325); a course whose rails are off satisfies it already (R326). An explicit OFF stays explicit where an automatic one follows. During a power-off it cancels an ON kept for after it (DESIGN CHOICE, log entry 57). -/
def requestOff (s : State) (co : Nat) (auto : Bool) : State :=
  match (s.course co).rail with
  | .off | .fault => s
  | .rising => startPowerOff (s.updCourse co fun c => { c with autoOff := auto }) co
  | .up => settleCourse (s.updCourse co fun c => { c with offWait := true, autoOff := auto && (c.autoOff || !c.offWait) }) co
  | .falling => s.updCourse co fun c => { c with onAfter := false, autoOff := c.autoOff && auto }

/-- Whether a span of the course runs: started and short of its closing milestone (R325). -/
def spanRuns (s : State) (co : Nat) : Bool :=
  s.disp.regions.any fun r => !r.lost && s.courseOf r.port.val == co && (r.cur || r.nxt || ((r.st == .running || r.st == .recovering) && r.spanEnd != 0 && r.nb != r.spanEnd))

/-- Whether a span of the course waits to start, rails apart (R325). -/
def spanWaits (s : State) (co : Nat) : Bool :=
  let up := s.updCourse co fun c => { c with rail := .up, offWait := false }
  s.disp.regions.any fun r => s.courseOf r.port.val == co && eligible up r

/-! Faults (R327 to R330) -/

/-- The ports of a course stop: planned frames are dropped, and every open region is lost at once (R328 steps 2 and 4). -/
def loseCourse (s : State) (co : Nat) : State :=
  let s := (s.portsOf co).foldl (fun s p =>
    let s := loseSlateRegions s p
    let s := dropFrame s p
    if (s.regionsOn p).any (fun r => r.lost && r.doubt) then readLLine s p else s) s
  s.updCourse co fun c => { c with plan := [], planned := false, now := [], frameOpen := false, waitAt := none, pathLost := true }

/-- Whether a port of the course has sent lines whose credits are still out. -/
def creditsAwaited (s : State) (co : Nat) : Bool := (s.portsOf co).any fun p => (s.port p).frame.any fun f => !f.sentLn.isEmpty

/-- On a fault path no further frame is planned and no packet sent; the regions are lost once the credits of the lines sent are in, or have been waited for (R328 steps 2 and 4). -/
def stopCourse (s : State) (co : Nat) : State :=
  if (s.course co).waitAt.isSome then s
  else if creditsAwaited s co then s.updCourse co fun c => { c with plan := [], planned := false, waitAt := some s.time }
  else loseCourse s co

/-- The wait for credits of a fault path ends: after 200 µs, which the first step of the power-off outlasts (R328 step 2, Table 11.3) (DEDUCED, log entry 37). -/
def endCreditWait (s : State) (co : Nat) : State := if (s.course co).waitAt.isNone then s else loseCourse s co

/-- The first fault of a course is recorded, and counted (R327, Table 11.11). -/
def recordFault (s : State) (co cause rail : Nat) : State :=
  let k := rlReg Reg.RL_CO_FAULT co
  let n := satTo 255 (s.regF k 7 0 + 1)
  if (s.course co).pathStop then s.regSetF k 7 0 n else s.regSet k (cause * 4096 + rail * 256 + n)

/-- The prompt path (R328). A further soft fault does not make a course power on again by itself after one that does not (R330). -/
def promptPath (s : State) (co cause rail : Nat) : State :=
  let s := recordFault s co cause rail
  let s := logEv s 0x5010 .action 7 co [co, cause, rail]
  let s := (raiseRl s 2 co).updCourse co fun c => { c with pathStop := true, flEn := false, flPwm := false, hardFault := false, retryWait := (cause = 1 || cause = 2 || cause = 5 || cause = 6) && (!c.pathStop || c.retryWait) }
  let s := stopCourse s co
  lightCheck (startPowerOff s co) co

/-- The cut path (R329): the rails are off at once, and the course stays in FAULT. -/
def cutPath (s : State) (co cause rail : Nat) : State :=
  let s := recordFault s co cause rail
  let s := logEv s 0x5011 .action 7 co [co, cause, rail]
  let s := (s.portsOf co).foldl (fun s p => match (cutLine s p).or (guardedLine s p) with | some y => logEv s 0xB070 .action 7 p [p, y] | none => s) s
  let s := (raiseRl s 2 co).updCourse co fun c =>
    { c with pathStop := true, flEn := false, flPwm := false, hardFault := true, retryWait := false, rail := .fault, step := 0, good := [], onWait := false, offWait := false, onAfter := false, tgt := List.replicate 9 0 }
  let s := (s.portsOf co).foldl (fun s p => s.updPort p fun t => { t with guardLine := none }) (stopCourse s co)
  lightCheck (raiseRl (logEv s 0x5012 .degraded 7 co) 1 co) co

/-- Automatic power-ons of a course in the last hour (R330). -/
def retriesInHour (s : State) (co : Nat) : Nat := ((s.course co).retryAt.filter fun t => decide (s.aon.tick.toNat < t + 3600 * 32768)).length

/-- A cracked and unmasked loop (R333): with CRSOFF = 1 the course takes the prompt path, which waits for credits before its regions are lost (R328); else the slate's regions are lost at once. A request to power its course on is cancelled (R322). -/
def crackLoop (s : State) (p : Nat) : State :=
  let co := s.courseOf p
  let s := s.regSet Reg.RL_LOOPCRACK (s.reg Reg.RL_LOOPCRACK 4 ||| 2 ^ p) 4
  let s := raiseRl (logEv s 0x5021 .action 7 p [p]) 4 p
  let s := s.updCourse co fun c => { c with flEn := false, flPwm := false, onWait := false, onAfter := false }
  let st := (s.course co).rail
  if s.regF Reg.RL_LOOPCFG 15 15 = 1 ∧ (st = .rising ∨ st = .up ∨ st = .falling) then lightCheck (promptPath s co 8 0) co else
  let s := loseSlateRegions s p
  let s := dropFrame s p
  lightCheck (if (s.regionsOn p).any (fun r => r.lost && r.doubt) then readLLine s p else s) co

/-! VIN-fail and stops (R193, R338, R339) -/

/-- The dispatcher stops: nothing more is planned or sent (R193). -/
def dispStop (s : State) : State :=
  let s := s.setRegions (s.disp.regions.map fun (r : Region) => { r with nxt := false })
  let s := { s with courses := s.courses.map fun (c : Course) => { c with plan := [], planned := false } }
  { s with disp := { s.disp with image := imageRecords s, stopped := true } }

/-- Every queued state-store write is discarded, journal writes apart (R59). -/
def dropWrites (s : State) : State := { s with memc := { s.memc with ssq := s.memc.ssq.filter fun e => e.2.1 == 1 } }

/-- Front lights low, and every course that is UP or powering on starts its power-off; requests to power on are cancelled (Table 11.5 step 1, R322). -/
def stopRails (s : State) : State :=
  let s := (List.range 8).foldl (fun s co =>
    let s := s.updCourse co fun c => { c with flEn := false, flPwm := false, onWait := false, onAfter := false, retryWait := false }
    let st := (s.course co).rail
    if st = .up ∨ st = .rising then startPowerOff s co else s) s
  lightCheckAll s

/-- Step 1 of Table 11.5: front lights low, the dispatcher stops, every course that is UP or powering on starts its power-off, every queued write but the journal's is dropped (R59, R193). -/
def stopDrive (s : State) : State :=
  let s := { s with power := { s.power with vinStep := 1 } }
  stopRails (dropWrites (dispStop s))

/-- A VIN-fail begins (R338, R339): it overrides every order and every transition; a stop already running goes on, and what has been queued for the state store since it began is discarded (R59). While the main domain is held in reset it has nothing to stop, and the start of cause 0x8 follows (R453) (DEDUCED, log entry 38). -/
def vinFail (s : State) (src vin : Nat) : State :=
  if s.power.vinf then s else
  let s := yieldOrders s
  let s := { s with power := { s.power with vinf := true, inTrans := false } }
  if !s.boot.mainOn then logEv s 0x6001 .action 7 0xFF [vin, src] else
  let s := raiseRl (logEv s 0x6001 .action 7 0xFF [vin, src]) 5 0
  if s.power.vinStep ≠ 0 then stopRails (dropWrites s) else stopDrive s

end Sys2Proof.Machine
end

