-- ==== Sys2Proof/Machine/DispRows.lean ====
section
/-! DEFINITION. The dispatcher's commands (Chapter 6): UPDATE, CANCEL, HOLD, RESUME, durable writes, planning, course frames, tolls, heat rates and lost links. -/
namespace Sys2Proof.Machine
open Sys2Proof

/-! Requests -/

/-- What keeps a request waiting (R167): a region limit, with the pieces that its take-overs will add, or a BLANK. -/
def overLimit (s : State) (q : Request) : Bool :=
  let parts := s.parts q.rect
  let onPort (k : Nat) : Option Rect := (parts.find? fun e => e.1.any (·.val == k)).map (·.2)
  let counts := (List.range 64).map fun k => s.countOn k (onPort k)
  counts.zipIdx.any (fun (n, k) => (onPort k).isSome && decide (16 < n)) || decide (512 < counts.foldl (fun a n => a + n) (0 : Nat))

/-- One region of a request on a port, ADMITTED, its own pixels opened and its target write queued (R168); with a HOLD mark it parks at boundary 0 (Table 6.6). The second answer counts pixels out of range (R25). -/
def formRegion (s : State) (req mode cls : Nat) (deadline : Option Nat) (hold : Bool) (p : PortId) (r : Rect) : State × Nat :=
  let overlapping := (s.overlaps p.val r).map (·.id)
  let (id, s) := s.newId
  let (serial, crc) := match (s.port p.val).slate, s.setOf p.val with
    | some sl, some st => (sl.serial, setTrailer st.words)
    | _, _ => (0, 0)
  let x : Region :=
    { id := id, req := req, port := p, rect := r, mode := mode, cls := cls, deadline := deadline, order := id, st := if hold then .parked else .admitted,
      reason := if hold then .hold else .milestone, kind := .run, rkind := .run, nkind := .run, frame := 0, line := none, rframe := 0, rline := none, spanEnd := 0,
      cur := false, nxt := false, tb := 0, ab := 0, inv := 0, tgtDur := false, splDur := true, ef := 0, hf := 0, rf := 0, heldE := 0, heldH := 0, heldR := 0,
      holdMark := false, cancelMk := false, lost := false, doubt := false, starved := false, wear := false, parkN := none, waitsFor := overlapping, serial := serial, setCrc := crc, spanB := 0, own := none, orig := none, under := none }
  let s := s.setRegions (s.disp.regions ++ [x])
  let px := ownPixels s x r
  let s := openPixels s p.val id px
  (s, countOutOfRange s p.val px)

/-- A request is admitted: one region for each slate it touches (R23, R166 to R168). After the state store is lost its regions park at boundary 0 and it ends with CANCELLED (R441) (DESIGN CHOICE, log entry 29). -/
def admitRequest (s : State) (q : Request) : State :=
  let (s, bad, n) := (s.parts q.rect).foldl (fun a e => match e.1 with
    | some p => let (s, k) := formRegion a.1 q.id q.mode q.cls q.deadline q.holdMark p e.2; (s, a.2.1 + k, a.2.2 + 1)
    | none => a) (s, 0, 0)
  let s := s.updRequest q.id fun q => { q with waiting := false, holdMark := false, formed := n }
  let s := settleHolds (noteOutOfRange s bad) q.id
  if !s.memc.ssLost then s else
  lossCheck (s.setRegions (s.disp.regions.map fun r => if r.req == q.id then { r with st := .parked, reason := .loss } else r)) q.id

/-- Whether a side-lane BLANK with SET = 1 that is not yet answered has the tick of a request's UPDATE, or an earlier one (R398 rule 2). -/
def blankComing (s : State) (q : Request) : Bool :=
  match s.takenAt (q.ring, q.seq) with
  | some t => s.side.msgs.any fun m => m.code == 0x11 && bitN (byteAt m.body 0) 0 && decide (m.tick.toNat ≤ t.tick.toNat)
  | none => false

/-- A request is admitted where nothing of R167 or R439 holds it back; one that waits for a limit logs EV-0x7060 once. -/
def tryAdmit (s : State) (q : Request) : State :=
  if s.side.blank || blankComing s q || serviceLost s then s
  else if overLimit s q then
    if q.limited then s else logEv (s.updRequest q.id fun q => { q with limited := true }) 0x7060 .note 4 q.ring.val
  else admitRequest s q

/-- A request that waits is cancelled (Table 6.6). -/
def cancelWaiting (s : State) (id : Nat) : State := finishRequest (s.updRequest id fun q => { q with waiting := false, cancelS := true }) id

/-- UPDATE (R165 to R168, R380). While a request of the ring waits, no further UPDATE is taken from it. -/
def execUpdate (r : RingId) (cid : Word) (s : State) : Out :=
  match s.startable r cid 0x30 with
  | none => ok s
  | some t =>
    if s.disp.requests.any (fun q => q.ring == r && q.waiting) then ok s else
    let h : HostRef := (r, t.seq)
    let (x, y, w, v) := t.rectAt 8
    let rect : Rect := ⟨x, y, w, v⟩
    let mode := t.field 16 1
    if 14 ≤ mode then ok (refuseOrder s h .badCommand 0x05) else
    match admitCheck s rect (some mode) with
    | some st => ok (refuseOrder s h st)
    | none =>
      let (id, s) := (s.begin h).newId
      let dl := t.field 20 4
      let q : Request :=
        { id := id, ring := r, cid := cid, seq := t.seq, rect := rect, mode := mode, cls := t.cls, deadline := if dl = 0 then none else some (t.time.toNat + dl * 100),
          waiting := true, holdMark := false, lostS := false, cancelS := false, mergedS := false, formed := 0, limited := false, watch := [] }
      let s := leaveIdle { s with disp := { s.disp with requests := s.disp.requests ++ [q] } }
      if s.disp.sleeping then ok (cancelWaiting s id) else ok (tryAdmit s q)

/-- A WAITING request of a ring is admitted as soon as nothing holds it back (R167) (DESIGN CHOICE, log entry 2). -/
def execAdmitWaitingRequest (r : RingId) (s : State) : Out :=
  match s.disp.requests.find? (fun q => q.ring == r && q.waiting) with
  | none => ok s
  | some q => ok (tryAdmit s q)

/-- The request that a CANCEL, HOLD or RESUME names by TRING and TCID. -/
def namedRequest (s : State) (t : Taken) : Option Request :=
  s.disp.requests.find? fun q => q.ring.val == t.field 8 1 % 16 && q.cid.toNat == t.field 10 2

/-- The regions of a request that commands act on: pieces are N's pixels, and lost regions have ended for it (R188 to R190). -/
def State.regionsOf (s : State) (id : Nat) : List Region := s.disp.regions.filter fun r => r.req == id && r.live

/-- An ADMITTED region is cancelled (Table 6.6): OPEN clears, S stays; pixels already parked for it take T := S (R189). -/
def cancelAdmitted (s : State) (r : Region) : State :=
  let p := r.port.val
  let pieces := s.disp.regions.filter fun q => q.parkN == some r.id && (q.st == .parked || q.st == .admitted)
  let px := ownPixels s r r.rect
  let s := px.foldl (fun s q =>
    let w := s.pixel p q.1 q.2
    if !psOpen w then s else
    let w := if pieces.any (·.rect.has q) then setBitsN w 9 5 (psS w) else w
    s.setPixel p q.1 q.2 (withTrim s p q.1 q.2 (setBitsN w 14 14 0))) s
  let s := ssQueue (ssDrop s 2 r.id) 3 r.id (persistWords s p px)
  let s := s.setRegions (s.disp.regions.filter fun q => !(q.parkN == some r.id && q.splDur))
  let s := s.updRequest r.req fun q => { q with cancelS := true }
  endRegion (returnTolls s r) r

/-- CANCEL on one region (Table 6.6). -/
def cancelRegion (s : State) (r : Region) : State :=
  let mark (s : State) : State := s.updRequest r.req fun q => { q with cancelS := true }
  match r.st with
  | .admitted => cancelAdmitted s r
  | .parked => cancelAt (mark s) r
  | .recovering => mark (s.updRegion r.id fun r => { r with cancelMk := true })
  | .running =>
    if lastSpan s r then s
    else if r.kind = .recover then cancelAt (mark s) r
    else settle (mark (s.updRegion r.id fun r => { r with cancelMk := true })) r.id
  | _ => s

/-- HOLD on one region (Table 6.6). -/
def holdRegion (s : State) (r : Region) : State :=
  match r.st with
  | .admitted => s.updRegion r.id fun r => { r with st := .parked, reason := .hold }
  | .parked => s.updRegion r.id fun r => { r with reason := .hold }
  | .recovering => s.updRegion r.id fun r => { r with holdMark := true }
  | .running =>
    if lastSpan s r then s
    else if r.kind = .recover then parkRegion s r .hold
    else settle (s.updRegion r.id fun r => { r with holdMark := true }) r.id
  | _ => s

/-- RESUME on one region (Table 6.6). -/
def resumeRegion (s : State) (r : Region) : State :=
  match r.st with
  | .parked => if r.reason = .hold then s.updRegion r.id fun r => { r with reason := .milestone } else s
  | .admitted | .running | .recovering => s.updRegion r.id fun r => { r with holdMark := false }
  | _ => s

/-- CANCEL (R188, R380): a waiting request is removed; the command completes once the request's own completion has been posted. -/
def execCancel (r : RingId) (cid : Word) (s : State) : Out :=
  match s.startable r cid 0x31 with
  | none => ok s
  | some t =>
    let h : HostRef := (r, t.seq)
    match namedRequest s t with
    | none => ok (postCompletion s h .ok)
    | some q =>
      let s := (s.begin h).updRequest q.id fun q => { q with watch := q.watch ++ [(false, h)] }
      if q.waiting then
        ok (finishRequest (s.updRequest q.id fun q => { q with waiting := false, cancelS := true }) q.id)
      else
        ok (finishRequest ((s.regionsOf q.id).foldl cancelRegion s) q.id)

/-- HOLD (R188, R380). -/
def execHold (r : RingId) (cid : Word) (s : State) : Out :=
  match s.startable r cid 0x32 with
  | none => ok s
  | some t =>
    let h : HostRef := (r, t.seq)
    match namedRequest s t with
    | none => ok (postCompletion s h .ok)
    | some q =>
      let s := (s.begin h).updRequest q.id fun q => { q with watch := q.watch ++ [(true, h)], holdMark := q.waiting }
      ok (settleHolds ((s.regionsOf q.id).foldl holdRegion s) q.id)

/-- RESUME (R188, R380). -/
def execResume (r : RingId) (cid : Word) (s : State) : Out :=
  match s.startable r cid 0x33 with
  | none => ok s
  | some t =>
    let h : HostRef := (r, t.seq)
    match namedRequest s t with
    | none => ok (postCompletion s h .ok)
    | some q =>
      let s := (s.begin h).updRequest q.id fun q => { q with holdMark := false }
      ok (postCompletion ((s.regionsOf q.id).foldl resumeRegion s) h .ok)

/-! Durable writes -/

/-- Writes reach the state store: it is not lost, no stop has discarded them, and its interface has a clock (R59, R441, Table 12.6). -/
def storeWrites (s : State) : Bool := !s.memc.ssLost && !s.disp.stopped && !dozing s

/-- A region's target words are durable, once their channels have served what stands before them (R29, R58). -/
def targetDurable (s : State) (rid : Nat) : State :=
  match s.region rid with
  | none => s
  | some r =>
    if r.tgtDur || !storeWrites s || !ssDue s 2 rid then s else (ssFlush s 2 rid).updRegion rid fun r => { r with tgtDur := true }

def execTargetDurable (rid : Nat) (s : State) : Out := ok (targetDurable s rid)

/-- The splice writes of a take-over are durable: once no piece of the region cut is left to write, the regions that carry on its run have records of their own (R192). -/
def uncoverImage (s : State) (r : Region) : State :=
  match r.orig with
  | none => s
  | some (o, _) =>
    if s.disp.regions.any (fun q => !q.splDur && (q.orig.map (·.1)) == some o) then s else
    s.setRegions (s.disp.regions.map fun q => if q.under = some o then { q with under := r.under } else q)

/-- A region's splice writes are durable: a take-over is handled, a cancelled region ends, a parked or recovered region stands at boundary 0 of its next run (R161, R185, R188, R192). -/
def spliceDurable (s : State) (rid : Nat) : State :=
  match s.region rid with
  | none => s
  | some r =>
    if r.splDur || !storeWrites s || !ssDue s 2 rid || (r.isPiece && !(r.st == .parked || r.st == .admitted)) then s else
    let s := uncoverImage ((ssFlush s 2 rid).updRegion rid fun r => { r with splDur := true }) r
    match r.parkN with
    | some n =>
      let s := s.updRegion n fun n => { n with waitsFor := remN n.waitsFor rid }
      if r.cancelMk || (s.region n).isNone then trimIdle (passPixels (s.dropRegion rid) r) (s.courseOf r.port.val) else s
    | none =>
      if r.cancelMk then endRegion s r else
      settleHolds (s.updRegion rid fun r => { r with kind := r.nkind, rkind := .run, frame := 0, line := none, rframe := 0, rline := none, wear := false, spanEnd := 0 }) r.req

def execSpliceWritesDurable (rid : Nat) (s : State) : Out := ok (spliceDurable s rid)

/-- A region's close write is durable: it leaves the journal image (R58, R192). -/
def closeDurable (s : State) (rid : Nat) : State :=
  match s.region rid with
  | none => s
  | some r => if r.st ≠ .done || !storeWrites s || !ssDue s 3 rid then s else (ssFlush s 3 rid).dropRegion rid

def execCloseWriteDurable (rid : Nat) (s : State) : Out := ok (closeDurable s rid)

/-! Planning (R174, R177 to R182) -/

/-- A span that has waited longer than DSP_STARVE.MS blocks later ones (R177); 0: never. -/
def execSpanStarved (rid : Nat) (s : State) : Out :=
  match s.region rid with
  | none => ok s
  | some r => if s.eff Reg.DSP_STARVE = 0 || !eligible s r then ok s else ok (s.updRegion rid fun r => { r with starved := true })

/-- The spans of a course that may start, of BACKGROUND or of the other classes, do so in the order of R177, while the buckets allow. -/
def startSpans (s : State) (co : Nat) (background : Bool) : State :=
  let cands := sortBy spanBefore (s.disp.regions.filter fun r => s.courseOf r.port.val == co && (r.cls == 3) == background && eligible s r)
  cands.foldl (fun s r => match nextSpan s r with
    | some x => if fits s co x && !blocked s r then startSpan s r x else s
    | none => s) s

/-- Whether an URGENT span waits for tolls (R178). -/
def urgentWaits (s : State) : Bool :=
  s.disp.regions.any fun r => r.cls == 1 && eligible s r && match nextSpan s r with
    | some x => !fits s (s.courseOf r.port.val) x
    | none => false

/-- The region-frames that advance: spans in progress and spans that start (R171, R179). -/
def planItems (s : State) (co : Nat) : List PlanItem :=
  (s.disp.regions.filter fun r => s.courseOf r.port.val == co && !r.lost && !r.isPiece && (r.st == .running || r.st == .recovering) && decide (r.nb < r.spanEnd)).map
    fun r => ⟨r.id, r.nb, 0, false, r.ef, r.hf, r.rf⟩

/-- The codes of a frame table (R148): index 1024 × c + 32 × o + n. -/
def tableCodes (f : Nat → Nat → Nat → Nat) : List (BitVec 3) :=
  (List.range 16384).map fun e => BitVec.ofNat 3 (f (e / 1024) (e / 32 % 32) (e % 32))

/-- The builds of one region-frame: a table, or a table pair on a LINE or DOT course; one for each line group of a RECOVER run (R149, R156, R180). -/
def buildsOf (s : State) (co : Nat) (r : Region) (it : PlanItem) : List Build :=
  match r.set s with
  | none => []
  | some st =>
    let pair := r.inv != 0
    if r.kind = .recover then
      let n := setNStates st.words
      (r.base.groupLines r.rect.y r.rect.h).zipIdx.map fun (y, g) =>
        let f (par : Bool) (c o m : Nat) : Nat := if n ≤ o ∨ n ≤ m then 0 else recoverCode (r.base.counts st y o m c par) it.frame
        ⟨0, g, pair, tableCodes (f false), if pair then tableCodes (f true) else [], co, [r.id], it.frame⟩
    else
      let f (par : Bool) (c o m : Nat) : Nat := r.run.code st it.frame o m c par
      [⟨0, 0, pair, tableCodes (f false), if pair then tableCodes (f true) else [], co, [r.id], it.frame⟩]

/-- The boundaries of the line groups of a RECOVER run (R155). -/
def groupBounds (r : Region) : List Nat := (r.base.groupLines r.rect.y r.rect.h).map r.base.bound

/-- Whether two region-frames share one table (R180): resident set, mode, bands, run kind, inversion and frame index; RECOVER runs share where their line groups have the same tables. -/
def sameTable (s : State) (a b : Region) (fa fb : Nat) : Bool :=
  (s.port a.port.val).set == (s.port b.port.val).set && a.set s == b.set s && a.mode == b.mode && a.tb == b.tb && a.ab == b.ab && a.kind == b.kind && a.inv == b.inv && fa == fb &&
    (a.kind != .recover || (a.rkind == b.rkind && groupBounds a == groupBounds b))

/-- The builds of a plan are ordered; each takes a free slot, or pair of slots, when a builder takes it (R149, R150, R180). -/
def orderBuilds (s : State) (co : Nat) (items : List PlanItem) : State × List PlanItem :=
  items.foldl (fun a it =>
    match a.1.region it.rid with
    | none => (a.1, a.2 ++ [it])
    | some r =>
      let s := a.1
      match a.2.find? (fun o => match s.region o.rid with | some q => sameTable s q r o.frame it.frame | none => false) with
      | some o =>
        let join (b : Build) : Build := if b.course = co ∧ b.rids.contains o.rid ∧ b.frame = o.frame then { b with rids := b.rids ++ [it.rid] } else b
        ({ s with ve := { s.ve with buildQ := s.ve.buildQ.map join, builds := s.ve.builds.map fun b => b.map join } }, a.2 ++ [it])
      | none => ({ s with ve := { s.ve with buildQ := s.ve.buildQ ++ buildsOf s co r it } }, a.2 ++ [it])) (s, [])

/-- The drive commands of one region-frame from a table (R155, R180): line by line, or in bands of up to 16 lines where the plane's line pitch is the window's width, within one line group of a RECOVER run and after the lines a resumed frame has reached. -/
def regionDrives (s : State) (b : Build) (cur : Bool) (r : Region) : List DriveCmd :=
  let (g, n) := r.rect.groups
  let gl := if r.kind = .recover then r.base.groupLines r.rect.y r.rect.h else [r.rect.y]
  let lo := max (gl.getD b.grp r.rect.y) (if r.kind = .recover ∧ b.frame = r.rframe then (match r.rline with | some v => v + 1 | none => 0) else 0)
  let hi := gl.getD (b.grp + 1) (r.rect.y + r.rect.h)
  let pitch := match s.place 0x01 r.port.val with | some pl => pl.pitch | none => 0
  let band := if pitch = 8 * n then 16 else 1
  (List.range (divCeil (hi - lo) band)).map fun i =>
    let y := lo + band * i
    { issuer := 0, course := b.course, rid := r.id, frame := b.frame, port := r.port.val, y := y, lines := min band (hi - y),
      op := if b.pair then r.inv + 1 else 1,
      k := BitVec.ofNat 32 (4 * n * 2 ^ 20 + y % 2 * 2 ^ 10 + (8 * (g + n) - (r.rect.x + r.rect.w)) * 2 ^ 7 + (r.rect.x - 8 * g) * 2 ^ 4 + b.slot), cur := cur, nextSeg := 0, bufs := [], replay := [], erred := [] }

/-- The drive commands that the dispatcher issues when a table is ready (R180). -/
def tableDrives (s : State) (b : Build) : List DriveCmd :=
  let now := (s.course b.course).now
  b.rids.flatMap fun i => match s.region i with
    | some r => regionDrives s b (now.any fun it => it.rid == i && it.frame == b.frame) r
    | none => []

/-- Whether an HBM granule holds words of a resident set that one of the regions named runs by. -/
def readsUnit (s : State) (base : Nat) (rids : List Nat) (k : Nat) : Bool :=
  rids.any fun i => match s.region i with
    | some r => match (s.port r.port.val).set, r.set s with
      | some j, some st =>
        let a := base + Config.residentSet j
        decide (a < k + eccSize k) && decide (k < a + st.words.length + (st.modes.map (·.2.length)).sum)
      | _, _ => false
    | none => false

/-- Unreadable data in the resident sets that a builder reads for its regions: they are made resident again from their cached records, which clears the poison, with EV-0x1002 (R440). -/
def healResident (s : State) (rids : List Nat) : State :=
  match s.place 0x10 0 with
  | none => s
  | some pl =>
    let bad (k : Nat) : Bool := decide (pl.base ≤ k) && decide (k < pl.base + pl.size) && readsUnit s pl.base rids k
    if s.poison.any bad then logEv { s with poison := s.poison.filter (!bad ·) } 0x1002 .action 5 else s

/-- A builder writes its table or table pair into the same slots of every W unit (R148, R149), once no command in progress names them (R150) and what it reads can be read (R440); the drive commands of the region-frames it serves are issued (R180) (DESIGN CHOICE, log entry 35). -/
def execFrameTableBuilt (b : Fin 2) (s : State) : Out :=
  match s.ve.builds.getD b.val none with
  | none => ok s
  | some x =>
    if dozing s || x.slots.any (namedSlots s).contains then ok s else
    let s := healResident s x.rids
    let sl := if x.pair then (s.ve.slots.set (x.slot / 2 * 2) (some ⟨x.t0⟩)).set (x.slot / 2 * 2 + 1) (some ⟨x.t1⟩) else s.ve.slots.set x.slot (some ⟨x.t0⟩)
    let s := { s with ve := { s.ve with slots := sl, builds := s.ve.builds.set b.val none }
                      disp := { s.disp with drives := s.disp.drives ++ (if s.disp.stopped then [] else tableDrives s x) } }
    let n := if x.pair then 2 else 1
    let s := s.regSet Reg.WF_BUILDS ((s.reg Reg.WF_BUILDS 2 + n) % 4294967296) 2
    let more (i : Nat) : Bool := (s.ve.buildQ ++ s.ve.builds.filterMap id).any fun q => q.rids.contains i && q.frame == x.frame && q.course == x.course
    let mark (l : List PlanItem) : List PlanItem := l.map fun it =>
      if x.rids.contains it.rid ∧ it.frame = x.frame then { it with ready := !more it.rid, slot := x.slot } else it
    let s := s.updCourse x.course fun c => { c with plan := mark c.plan, now := mark c.now }
    ok (startBuilds s)

/-- Payload bytes that a port's link carries in one nominal period (R285): 0.8 bytes per ns on two lanes, half on one. -/
def linkCapacity (s : State) (p rate : Nat) : Nat := periodOf rate * (if (s.port p).oneLane then 4 else 8)

/-- The hold-off of a course (R182): a mean stretch above 5 % or a line load above 95 % starts it; it ends below 2 % with the load check passed. Stretches are exact, in parts of 10^8 of the nominal period. -/
def holdOffCheck (s : State) (co : Nat) (items : List PlanItem) : State :=
  let c := s.course co
  let heavy := (s.portsOf co).any fun p => decide (95 * linkCapacity s p (courseRate s co) < 100 * lineLoad s items p)
  let sum := c.stretches.foldl (· + ·) 0
  let n := c.stretches.length
  if c.holdOff then
    if (sum < 2000000 * n ∨ n = 0) ∧ !heavy then s.updCourse co fun c => { c with holdOff := false } else s
  else if 5000000 * n < sum ∨ heavy then logEv (s.updCourse co fun c => { c with holdOff := true }) 0x6043 .degraded 4 co
  else s

/-- Whether an URGENT span now waits for tolls, with DSP_POLICY.YIELD = 1, and the BACKGROUND regions of a course at a milestone park (R178). -/
def settleYield (s : State) (co : Nat) : State :=
  settleCourse { s with disp := { s.disp with yielding := s.regF Reg.DSP_POLICY 15 15 = 1 && urgentWaits s } } co

/-- The planning point of a course's next frame (R179): take-overs, marks, the hold-off, spans in the order of R177 with the yields that URGENT spans ask for, the frame plan, and its tables. -/
def execPlanningPoint (co : CourseId) (s : State) : Out :=
  let c := s.course co.val
  if s.disp.stopped || dozing s || c.planned || c.pathStop || courseRate s co.val = 0 then ok s else
  let s := leaveIdle s
  let s := doTakeOvers s (s.portsOf co.val)
  let s := settleCourse s co.val
  let s := if c.autoOff && spanWaits s co.val then requestOn s co.val else s
  let s := holdOffCheck s co.val (planItems s co.val)
  let s := startSpans s co.val false
  let s := settleYield s co.val
  let s := startSpans s co.val true
  let items := planItems s co.val
  let s := s.setRegions (s.disp.regions.map fun (r : Region) => if items.any (·.rid == r.id) then { r with nxt := true } else r)
  let (s, items) := orderBuilds s co.val items
  let s := holdOffCheck s co.val items
  ok (startBuilds (s.updCourse co.val fun c => { c with plan := items, planned := true }))

/-! Course frames (R175, R182, R293) -/

/-- The registers whose boundary is the frame take effect (R12). DSP_LEAD, DSP_STARVE, DSP_LOSTWAIT and SL_CFG stand for the whole block and each course has frames of its own: the next frame start of any course is their boundary (DESIGN CHOICE, log entry 53). -/
def frameBoundary (s : State) : State :=
  (((s.takeEffect Reg.DSP_LEAD).takeEffect Reg.DSP_STARVE).takeEffect Reg.DSP_LOSTWAIT).takeEffect Reg.SL_CFG

/-- The frame that a port sends for a plan (R292, R293); none where no region of its slate is in the plan. -/
def portFrame (s : State) (p : Nat) (items : List PlanItem) (rate : Nat) : State :=
  let ls := frameLines s items p
  let h := match (s.port p).slate with | some sl => sl.height | none => 0
  if ls.isEmpty then s else
  s.updPort p fun t => { t with
    frame := some ⟨t.ftag, tlineOf rate h, ls, ls, ls.length, false, [], none, []⟩
    ftag := t.ftag + 1, credLine := none, sentLine := none }

/-- A course frame starts: the rate may change, and FRAME_BEGIN goes to every slate in the plan (R18, R182, R293). -/
def execCourseFrameStart (co : CourseId) (s : State) : Out :=
  let c := s.course co.val
  let first := s.reg (Reg.DSP_CO_FRAMES + 8 * co.val) 2 = 0
  if !c.planned || c.frameOpen || s.disp.stopped || (!first && decide (s.time.toNat < c.startAt.toNat + periodOf c.rate)) then ok s else
  let rate := courseRate s co.val
  let s := trimBoundary (frameBoundary s) co.val
  let s := s.setRegions (s.disp.regions.map fun (r : Region) => if r.nxt && c.plan.any (·.rid == r.id) then { r with cur := true, nxt := false } else r)
  let s := s.updCourse co.val fun c => { c with rate := rate, now := c.plan, plan := [], planned := false, frameOpen := true, startAt := s.time }
  let s := { s with disp := { s.disp with drives := s.disp.drives.map fun (d : DriveCmd) => if d.course == co.val && d.op != 0 then { d with cur := true } else d } }
  let s := s.regWrapInc (Reg.DSP_CO_FRAMES + 8 * co.val)
  let s := (s.portsOf co.val).foldl (fun s p => s.updPort p fun t => { t with guardLine := none }) s
  ok ((s.portsOf co.val).foldl (fun s p => portFrame s p c.plan rate) s)

/-- Shares of a measured amount in proportion to estimates: rounded down, the remainder to the largest estimate, the lowest port first on a tie (R175), and on one port the first in the frame plan (DESIGN CHOICE, log entry 53). -/
def shares (total : Nat) (l : List (Nat × Nat × Nat)) : List (Nat × Nat × Nat) :=
  let sum := (l.map (·.2.2)).foldl (· + ·) 0
  let base := l.map fun (id, p, e) => (id, p, if sum = 0 then 0 else total * e / sum)
  let rest := total - (base.map (·.2.2)).foldl (· + ·) 0
  let best := minBy (fun x => x.2.1) (l.filter fun x => l.all fun y => decide (y.2.2 ≤ x.2.2))
  match best with
  | none => base
  | some b => base.map fun x => if x.1 = b.1 then (x.1, x.2.1, x.2.2 + rest) else x

/-- The measured share of a region. -/
def shareOf (l : List (Nat × Nat × Nat)) (id : Nat) : Nat := match l.find? (·.1 == id) with | some x => x.2.2 | none => 0

/-- One region-frame reconciled: its estimates leave held, its measured shares are spent, and the differences return (R175). -/
def reconcileItem (s : State) (co : Nat) (e h rl : List (Nat × Nat × Nat)) (it : PlanItem) : State :=
  let me := shareOf e it.rid
  let mh := shareOf h it.rid
  let mr := shareOf rl it.rid
  let s := { s with disp := { s.disp with
    held := s.disp.held - BitVec.ofNat 48 it.ef
    spent := s.disp.spent + BitVec.ofNat 48 me
    ebucket := signed48 (s.disp.ebucket + ((it.ef : Int) - me))
    hbucket := signed48 (s.disp.hbucket + ((it.hf : Int) - mh)) } }
  let s := s.updCourse co fun c => { c with railb := signed48 (c.railb + ((it.rf : Int) - mr)) }
  s.updRegion it.rid fun r => { r with heldE := r.heldE - it.ef, heldH := r.heldH - it.hf, heldR := r.heldR - it.rf }

/-- A region-frame is complete: the region's progress moves one frame on. -/
def advance (r : Region) : Region :=
  if !r.cur then r else
  if r.kind = .recover then { r with cur := false, rframe := r.rframe + 1, rline := none, wear := true }
  else { r with cur := false, frame := r.frame + 1, line := none, wear := true }

/-- Blocks gain for every run whose first frame has completed: the pieces of one run count together (R310). -/
def countWear (s : State) (ids : List Nat) : State :=
  let rs := s.disp.regions.filter fun r => ids.contains r.id && r.cur && !r.wear
  let keys := rs.foldl (fun a r => if a.contains (r.port.val, r.order) then a else a ++ [(r.port.val, r.order)]) []
  keys.foldl (fun s k => wearRun s k.1 ((rs.filter fun r => r.port.val == k.1 && r.order == k.2).map (·.rect))) s

/-- The end of a course frame (R175): measured energies are shared (the heat and the rail amounts in proportion to each region's own estimates H_f and R_f: DESIGN CHOICE, log entry 53), regions advance, spans that end are settled, and the audits run. A missing rail report is taken as the estimate (R444) (DEDUCED, log entry 34). -/
def execCourseFrameReconcile (co : CourseId) (railUj : Option Nat) (driveUj : Nat) (heatUj : Nat) (s : State) : Out :=
  let c := s.course co.val
  if !c.frameOpen || (s.portsOf co.val).any (fun p => (s.port p).frame.isSome) || s.disp.stopped then ok s else
  let est := (c.now.map (·.rf)).foldl (· + ·) 0
  let rail := railUj.getD est
  let s := match railUj with
    | some v => s.regSet (rlReg Reg.RL_CO_EFRAME co.val) (v % 4294967296) 2
    | none => logEv s 0x6050 .action 4 co.val
  let key (f : PlanItem → Nat) : List (Nat × Nat × Nat) := c.now.map fun it => (it.rid, match s.region it.rid with | some r => r.port.val | none => 64, f it)
  let s := c.now.foldl (reconcileItem · co.val (shares (rail + driveUj) (key (·.ef))) (shares heatUj (key (·.hf))) (shares rail (key (·.rf)))) s
  let ids := c.now.map (·.rid)
  let ports := (s.portsOf co.val).filter fun p => ids.any fun i => match s.region i with | some r => r.port.val == p | none => false
  let s := countWear s ids
  let s := ports.foldl (fun s p => s.updSlate p fun sl => { sl with frames := sl.frames + 1 }) s
  let s := s.setRegions (s.disp.regions.map fun r => if ids.contains r.id then advance r else r)
  let period := periodOf c.rate
  let due := c.startAt.toNat + period
  let stretch := (s.time.toNat - due) * c.rate
  let s := s.updCourse co.val fun c => { c with now := [], frameOpen := false, stretches := (c.stretches ++ [stretch]).drop (c.stretches.length + 1 - 16) }
  let s := endDriveCmds s fun d => d.course == co.val && d.cur
  let s := trimBoundary s co.val
  let s := ids.foldl settle s
  ok (tollAudit s)

/-! Write-back (R30) -/

/-- The write-back of a closing region commits, once every segment of its command has run: S := T and OPEN clears; the request's completion is posted when it was the last (R30, R168). Pixels held for S or T ≥ n keep S (R25). -/
def execWriteBackCommitted (rid : Nat) (s : State) : Out :=
  match s.region rid with
  | none => ok s
  | some r =>
    if r.st ≠ .closing || s.disp.stopped || s.disp.drives.any (fun d => d.rid == rid && d.op == 0 && !d.ran) then ok s else
    let s := endDriveCmds s fun d => d.rid == rid && d.op == 0
    let p := r.port.val
    let n := match r.set s with | some st => setNStates st.words | none => 32
    let s := healPlane s p r.rect
    let px := rectPixels r.rect
    let s := px.foldl (fun s q =>
      let w := s.pixel p q.1 q.2
      if psHeld w ∨ !psOpen w then s else
      let v := if psS w < n ∧ psT w < n then setBitsN w 4 0 (psT w) else w
      s.setPixel p q.1 q.2 (withTrim s p q.1 q.2 (setBitsN v 14 14 0))) s
    let s := if s.memc.ssLost then s else ssQueue s 3 rid (persistWords s p px)
    let s := s.updRegion rid fun r => { r with st := .done }
    let s := passPixels s r
    ok (trimIdle (if s.memc.ssLost then lossCheck s r.req else finishRequest s r.req) (s.courseOf p))

/-! Tolls and heat (R173, R176, R183) -/

/-- A bucket after a gain that its depth bounds; the part issued. -/
def refill (b : Int) (gain depth : Nat) : Int × Nat :=
  let room := (depth : Int) - b
  let g := if room ≤ 0 then 0 else if (gain : Int) ≤ room then gain else room.toNat
  (b + g, g)

/-- One µs of refill (R173): the energy bucket at the cap, the heat bucket at the thermal model's rate, each rail bucket at its budget. -/
def execBucketRefill (s : State) : Out :=
  let (e, g) := refill s.disp.ebucket (capWatts s) (bucketDepth s)
  let (h, _) := refill s.disp.hbucket (s.regF Reg.PM_HRATE 6 0) (bucketDepth s)
  ok { s with disp := { s.disp with ebucket := e, hbucket := h, issued := s.disp.issued + BitVec.ofNat 48 g }
              courses := s.courses.zipIdx.map fun (c, i) => { c with railb := (refill c.railb (s.regF (Reg.DSP_CO_CFG + 8 * i) 4 0) (railDepth s i)).1 } }

/-- The toll audit, at least once per ms (R176). -/
def execTollAudit (s : State) : Out := ok (tollAudit s)

/-- Heat estimate in progress on a course: what its regions hold (R183). -/
def heatInProgress (s : State) (co : Nat) : Nat := ((s.disp.regions.filter fun r => s.courseOf r.port.val == co).map (·.heldH)).foldl (· + ·) 0

/-- The heat bucket has been below zero for HEATWIN ms: the hottest course slows by 5 Hz, not below 25 Hz (R183), the lowest-numbered one of several (DESIGN CHOICE, log entry 53) (DEDUCED, log entry 34). -/
def execHeatRateLower (s : State) : Out :=
  if 0 ≤ s.disp.hbucket then ok s else
  let hot (co : Nat) : Nat := heatInProgress s co
  let cands := (List.range 8).filter fun co => courseRate s co ≠ 0 && hot co ≠ 0
  match minBy id (cands.filter fun co => cands.all fun x => decide (hot x ≤ hot co)) with
  | none => ok s
  | some co =>
    let nom := s.regF (Reg.DSP_CO_CFG + 8 * co) 14 8
    let h := (s.course co).heatRate
    let now := if h = 0 ∨ nom < h then nom else h
    if now ≤ 25 then ok s else
    ok (logEv (s.updCourse co fun c => { c with heatRate := max 25 (now - 5) }) 0x6040 .degraded 4 co)

/-- The heat bucket has stayed above half its depth for 1 s: one lowered course speeds up by 5 Hz, up to its nominal rate (R183) (DEDUCED, log entry 34). -/
def execHeatRateRaise (s : State) : Out :=
  if 2 * s.disp.hbucket ≤ bucketDepth s then ok s else
  match (List.range 8).find? (fun co => (s.course co).heatRate ≠ 0) with
  | none => ok s
  | some co =>
    let nom := s.regF (Reg.DSP_CO_CFG + 8 * co) 14 8
    let r := (s.course co).heatRate + 5
    ok (logEv (s.updCourse co fun c => { c with heatRate := if nom ≤ r then 0 else r }) 0x6041 .note 4 co)

/-! Lost links (R190) -/

/-- A link silent for DSP_LOSTWAIT: its frame ends without the slate, and its open regions are lost; a slate with none is detached; a life write in progress has failed, and an authentication ends (R190, R312, Table 10.14) (DEDUCED, log entry 34). -/
def execLostLinkTimeout (p : PortId) (s : State) : Out :=
  let t := s.port p.val
  if t.st == .active && t.frame.isNone then ok s else
  let s := s.updPort p.val fun t => { t with pendingAt := none, challenge := [], authStage := 0 }
  if t.slate.isNone then ok s else
  let any := (s.regionsOn p.val).any fun r => r.isOpen && !r.lost
  let s := lifeChunk (loseSlateRegions s p.val) p.val false
  let s := dropFrame s p.val
  let s := if any then s else logEv s 0x4071 .note 6 p.val
  ok (s.updPort p.val fun t => { t with slate := none, drivable := false, newSlate := true, tempOk := false, staleT := false, lifeW := none, xfers := [], trans := [] })

end Sys2Proof.Machine
end

