-- ==== Sys2Proof/Machine/LinkRows.lean ====
section
/-! DEFINITION. The slate link's commands (Chapter 10): stream packets, credits, events, status, transactions, training, life writes, attachment and authentication. -/
namespace Sys2Proof.Machine
open Sys2Proof

/-! Sending (R292, R293, R297) -/

/-- Whether every region of a line has its tables (R180 step 1). -/
def lineReady (items : List PlanItem) (rs : List Region) (y : Nat) : Bool :=
  rs.all fun r => !r.drivesLine y || items.all fun it => it.rid != r.id || it.ready

/-- A new stream packet leaves: NEXT advances and the packet is kept for replay (R297). -/
def sendNew (s : State) (p : Nat) (k : DownPkt) (f : TxFrame → TxFrame) : State :=
  s.updPort p fun t => { t with next := t.next + 1, replayBuf := t.replayBuf ++ [(k, 1)], lastSent := some k, gap := false, frame := t.frame.map f }

/-- Whether every drive command of a line has run, with no segment to run again: a replayed drive segment commits before its line is sent (R432). -/
def lineDriven (s : State) (p y : Nat) : Bool := s.disp.drives.all fun d => !(d.port == p && d.cur && d.covers y) || d.ran

/-- The drive commands of a port that end at or before a line have completed once it is sent, and builds that wait for their slots start (R180) (DESIGN CHOICE, log entry 35). -/
def endDrives (s : State) (p y : Nat) : State := startBuilds (endDriveCmds s fun d => d.port == p && d.cur && decide (d.y + d.lines ≤ y + 1))

/-- A port sends its next stream packet: a replay first, else the next packet of its frame within LIMIT and the replay window; a transaction that waits may follow it (R297, R299). On a course in a fault path it sends none (R328 step 2). -/
def execStreamPacketSend (p : PortId) (s : State) : Out :=
  let t := s.port p.val
  if t.st ≠ .active || s.disp.stopped || (s.course (s.courseOf p.val)).pathStop then ok s else
  match t.resend with
  | k :: rest =>
    let n := match t.replayBuf.find? (fun e => e.1.sseq == k.sseq) with | some e => e.2 | none => 0
    if 8 ≤ n then ok (retrain s p.val) else
    ok (startXfers (countReplay (s.updPort p.val fun t => { t with resend := rest, lastSent := some k, gap := false, replayBuf := t.replayBuf.map fun e => if e.1.sseq == k.sseq then (e.1, e.2 + 1) else e }) p.val) p.val)
  | [] =>
    match t.frame with
    | none => ok s
    | some f =>
      if !seqLt t.next t.limit || decide (32 ≤ (t.next - t.acked).toNat) then ok s else
      if !f.began then ok (startXfers (sendNew s p.val (.frameBegin false t.next f.ftag f.tline f.nlines) fun f => { f with began := true }) p.val) else
      match f.lines with
      | y :: rest =>
        let items := (s.course (s.courseOf p.val)).now
        let rs := planRegions s items p.val
        if !lineReady items rs y || !lineDriven s p.val y then ok s else
        let s := rs.foldl (fun s r => if r.drivesLine y then healPlane s p.val ⟨r.rect.x, y, r.rect.w, 1⟩ else s) s
        ok (startXfers (endDrives ((sendNew s p.val (.line false t.next f.ftag y (lineSpans s rs y)) fun f => { f with lines := rest, sentLn := f.sentLn ++ [(t.next, y)] }).updPort p.val
          fun t => { t with sentLine := some y }) p.val y) p.val)
      | [] =>
        if f.endSseq.isSome then ok s else
        ok (startXfers (sendNew s p.val (.frameEnd false t.next f.ftag) fun f => { f with endSseq := some t.next }) p.val)

/-! Upstream packets -/

/-- The checks of R299 on a CREDIT (DEDUCED, log entry 36). -/
def creditOk (t : Port) (acked done limit : Word) : Bool :=
  seqLe done acked && seqLe acked t.next && decide ((acked - done).toNat ≤ t.buf) && limit == done + BitVec.ofNat 16 t.buf &&
    seqLe t.acked acked && seqLe t.done done && seqLe t.limit limit

/-- A CREDIT that meets R299: packets before ACKED leave the buffer, lines before DONE are credited, and the frame may be complete. -/
def takeCredit (s : State) (p : Nat) (acked done limit : Word) : State :=
  let s := (ackTo s p acked).updPort p fun t => { t with done := done, limit := limit, grace := false }
  match (s.port p).frame with
  | none => s
  | some f =>
    let got := (f.sentLn.filter fun e => seqLt e.1 done).map (·.2)
    let f := { f with cred := f.cred ++ got, sentLn := f.sentLn.filter fun e => !seqLt e.1 done }
    let s := s.updPort p fun t => { t with frame := some f, credLine := match got.getLast? with | some y => some y | none => t.credLine }
    match f.endSseq with
    | some e => if seqLt e done then frameDone s p f else s
    | none => s

/-- A CREDIT arrives (R299, R301): in CONFIG the first valid one makes the port ACTIVE, and replay resumes from ACKED; regions that a restart seen at a PONG has lost recover (R303). EV-0x4001 is logged here alone, and not where RETRAIN ends in ACTIVE (DESIGN CHOICE, log entry 57). -/
def execCredit (p : PortId) (acked done limit : Word) (s : State) : Out :=
  let t := s.port p.val
  if t.st ≠ .active ∧ t.st ≠ .config then ok s else
  if !creditOk t acked done limit then
    if t.grace then ok s else
    let now := s.time.toNat
    let recent := t.fails.filter (now < · + 100000)
    let s := countProto (s.updPort p.val fun t => { t with fails := recent ++ [now] }) p.val
    if 2 ≤ recent.length then ok (retrain (s.updPort p.val fun t => { t with fails := [] }) p.val) else ok s
  else
    let s := takeCredit s p.val acked done limit
    if t.st = .config then
      let s := startXfers (logEv (setPortSt s p.val .active) 0x4001 .note 6 p.val [t.lanes.toNat]) p.val
      ok (tryRecover (if (s.port p.val).replayBuf.isEmpty then s else startReplay s p.val) p.val)
    else ok s

/-- NAK (R299): in range, ARG is taken as ACKED and everything from it is sent again; else it is ignored and counted. -/
def execEventNak (p : PortId) (arg : Word) (s : State) : Out :=
  let t := s.port p.val
  if t.st ≠ .active then ok s else
  if seqLe t.acked arg && seqLe arg t.next then ok (startReplay (ackTo (countCrc s p.val) p.val arg) p.val)
  else ok (countProto (countCrc s p.val) p.val)

/-- A protocol error reported by the bridge: counted, logged, and a new session (R467). -/
def execEventProtocolError (p : PortId) (sseq : Word) (s : State) : Out :=
  if (s.port p.val).st ≠ .active then ok s else
  ok (newSession (raiseSl (logEv (countProto s p.val) 0x4030 .action 6 p.val) 4 p.val) p.val)

/-- An overrun is a protocol error, and the port retrains (R300). -/
def execEventOverrun (p : PortId) (sseq : Word) (s : State) : Out :=
  if (s.port p.val).st ≠ .active then ok s else
  ok (retrain (raiseSl (logEv (countProto s p.val) 0x4030 .action 6 p.val) 4 p.val) p.val)

/-- A driver fault reported by the bridge (R315). -/
def execEventDriverFault (p : PortId) (line : Word) (s : State) : Out :=
  if (s.port p.val).st ≠ .active then ok s else ok (logEv s 0x4032 .action 6 p.val)

/-- A packet with a nonzero reserved field is a protocol error, and is then treated as corrupted (R290). -/
def countReserved (s : State) (p : Nat) : State := countCrc (countProto s p) p

/-- A packet arrives on U that is not intact (R287 to R290, R300): it is discarded and counted. Its bytes are none where a code violation, a disparity error or a K symbol lies inside it. An intact packet is a command of its own type. -/
def execCorruptedUpstreamPacket (p : PortId) (packet : Option (List Byte)) (s : State) : Out :=
  match (packet.map upCheck).getD .corrupted with
  | .intact => ok s
  | .corrupted => ok (countCrc s p.val)
  | .protocol => ok (countProto s p.val)
  | .reservedField => ok (countReserved s p.val)

/-- Whether a lane fails by its error count (R302). -/
def laneFails (errMax e lerr : Nat) : Bool := errMax ≠ 0 && (lerr = 255 || decide (errMax * e < lerr))

/-- STATUS (R138, R302): temperature, stretch, and lane errors; a failing lane makes the port retrain, and is dropped if it does not lock then; a reserved bit of FLAGS makes it a protocol error (R290). The first STATUS of a session may come while the port is still in CONFIG (R314). -/
def execStatus (p : PortId) (temp stretch : Word) (_sftag flags lerr0 lerr1 : Byte) (sinceMs : Nat) (s : State) : Out :=
  let t := s.port p.val
  if t.st ≠ .active ∧ t.st ≠ .config then ok s else
  if 32 ≤ flags.toNat then ok (countReserved s p.val) else
  let s := s.regSet (portReg Reg.SL_STR p.val) stretch.toNat
  let s := if flags.getLsbD 0 then s else
    (s.regSet (portReg Reg.SL_TEMP p.val) temp.toNat).updPort p.val fun t => { t with tempOk := true, tempSeen := true, tempAt := s.time, staleT := false, staleEv := none }
  let e := if t.statSeen then max 1 sinceMs else 1
  let m := s.eff Reg.SL_CFG % 256
  let f0 := t.d0 && laneFails m e lerr0.toNat
  let f1 := t.d1 && laneFails m e lerr1.toNat
  let s := s.updPort p.val fun t => { t with statSeen := true }
  if f0 || f1 then ok (retrain s p.val) else ok s

/-! Training (R301 to R303) -/

/-- U delivers 64 consecutive valid idle sets: DETECT to ALIGN. -/
def execIdleSetsReceived (p : PortId) (s : State) : Out :=
  if (s.port p.val).st = .detect then ok (setPortSt (s.updPort p.val fun t => { t with u := true, pings := 0 }) p.val .align) else ok s

/-- One-lane mode begins or ends (R302). -/
def setLanes (s : State) (p : Nat) (l0 l1 : Bool) : State :=
  let was := (s.port p).oneLane
  let one := l0 != l1
  let s := s.updPort p fun t => { t with d0 := l0, d1 := l1, oneLane := one }
  if one && !was then logEv s 0x4020 .degraded 6 p
  else if !one && was then logEv s 0x4021 .note 6 p else s

/-- A PONG (R301, R303): ALIGN to CONFIG; in RETRAIN the same BOOTCNT continues the session and another starts a new one. A PONG whose PTAG answers no PING is discarded. A B below 32 or another VERSION than 0x01 makes it a protocol error (R290); one with a reserved bit is not intact, and a CORRUPTED_UPSTREAM_PACKET (DEDUCED, log entry 36). -/
def execPong (p : PortId) (lock0 lock1 : Bool) (ptag buf bootcnt version : Byte) (rttNs : Word) (s : State) : Out :=
  let t := s.port p.val
  if buf.toNat < 31 ∨ version ≠ 1 then ok (countReserved s p.val) else
  if ptag ≠ t.ptag ∨ (t.st ≠ .align ∧ t.st ≠ .retrain) then ok s else
  let s := s.regSet (portReg Reg.SL_RTT p.val) rttNs.toNat
  let l0 := lock0 && (t.st == .align || t.d0)
  let l1 := lock1 && (t.st == .align || t.d1)
  if !l0 && !l1 then (if t.st = .retrain then ok (toDetect s p.val) else ok s) else
  let s := (setLanes s p.val l0 l1).updPort p.val fun t => { t with seenBoot := bootcnt, buf := buf.toNat + 1, tempOk := false }
  if t.st = .align then ok (enterConfig s p.val) else
  if t.boot = some bootcnt ∧ ¬ t.newSlate then
    let s := setPortSt s p.val .active
    let s := if l0 = t.d0 ∧ l1 = t.d1 then logEv s 0x4011 .masked 6 p.val else s
    let s := sendPkt (s.updPort p.val fun t => { t with replayBuf := t.replayBuf.map fun e => (e.1, 0), gap := true }) p.val (.creditSync false t.next)
    let s := startXfers s p.val
    ok (if (s.port p.val).replayBuf.isEmpty then s else startReplay s p.val)
  else ok (enterConfig s p.val)

/-- Every 100 µs in ALIGN a PING is sent; after 4 without a PONG the port returns to DETECT (R301). -/
def execPingTimer (p : PortId) (s : State) : Out :=
  let t := s.port p.val
  if t.st ≠ .align then ok s else
  if 4 ≤ t.pings then ok (toDetect s p.val) else ok (sendPing s p.val 3)

/-- No CREDIT that meets R299 within 50 µs in CONFIG, 3 times: DETECT (R301). -/
def execConfigTimeout (p : PortId) (s : State) : Out :=
  let t := s.port p.val
  if t.st ≠ .config then ok s else
  if 2 ≤ t.cfgTries then ok (toDetect s p.val) else
  ok (sendPkt (s.updPort p.val fun t => { t with cfgTries := t.cfgTries + 1, gap := true }) p.val (.creditSync t.syncReset t.next))

/-- No PONG with a locked lane within 200 µs of RETRAIN: DETECT (R301). -/
def execRetrainTimeout (p : PortId) (s : State) : Out :=
  if (s.port p.val).st = .retrain then ok (toDetect s p.val) else ok s

/-- An ACTIVE port loses symbol lock (R301). -/
def execSymbolLockLost (p : PortId) (s : State) : Out := ok (retrain s p.val)

/-- ACKED has not advanced for TREPLAY: resend from ACKED (R299). -/
def execReplayTimeout (p : PortId) (s : State) : Out :=
  let t := s.port p.val
  if t.st = .active ∧ t.acked ≠ t.next then ok (startReplay s p.val) else ok s

/-- No CREDIT for 500 µs while ACTIVE (R300). -/
def execCreditTimeout (p : PortId) (s : State) : Out := ok (retrain s p.val)

/-- An unanswered transaction is resent after 200 µs while the port is ACTIVE (R301); after 3 retries the port retrains (R300). A chunk of a life write that has failed is given up. -/
def execTransactionRetry (p : PortId) (tag : BitVec 4) (s : State) : Out :=
  match (s.port p.val).trans.find? (·.tag == tag) with
  | none => ok s
  | some x =>
    if (s.port p.val).st ≠ .active then ok s else
    if x.dead then ok (startXfers (s.updPort p.val fun t => { t with trans := t.trans.filter (·.tag != tag) }) p.val) else
    let set (n : Nat) : State := s.updPort p.val fun t => { t with trans := t.trans.map fun y => if y.tag == tag then { y with retries := n } else y }
    if 3 ≤ x.retries then ok (retrain (set 0) p.val) else ok (resendTrans (set (x.retries + 1)) p.val x)

/-- 10 µs after RSTAT busy the transaction is resent (R304). -/
def execTransactionBusyRetry (p : PortId) (tag : BitVec 4) (s : State) : Out :=
  match (s.port p.val).trans.find? (fun x => x.tag == tag && x.busy) with
  | none => ok s
  | some x => if (s.port p.val).st ≠ .active then ok s else
    ok (resendTrans (s.updPort p.val fun t => { t with trans := t.trans.map fun y => if y.tag == tag then { y with busy := false } else y }) p.val x)

/-- A write of 1 to SL_PCTRLn.RETRAIN (R301). -/
def execPortRetrain (p : PortId) (s : State) : Out := ok (retrain s p.val)

/-! Life (R310 to R312) -/

/-- A write of 1 to SL_PCTRLn.LIFEW. -/
def execLifeWriteNow (p : PortId) (s : State) : Out := ok (writeLife s p.val none)

/-- Every SL_LIFEPER minutes. -/
def execLifeWritePeriod (s : State) : Out := ok ((List.range 64).foldl (fun s p => writeLife s p none) s)

/-- A second in which a course's FL_EN is on with a nonzero PWM (R310). -/
def execLightSecond (s : State) : Out :=
  ok ((List.range 64).foldl (fun s p =>
    let c := s.course (s.courseOf p)
    if s.portEn p && c.flEn && c.flPwm && c.dutyEff != 0 then s.updSlate p fun sl => { sl with light := (sl.light + 1) % 4294967296 } else s) s)

/-! Attachment (R306 to R309, R312, R159) -/

/-- The last check of a record that fails before the body's: codes 0x1 to 0x4 of Table 10.11; 0 where they pass. -/
def headerCheck (s : State) (p : Nat) (d : SlateData) : Nat :=
  let h := d.header
  let f (i n : Nat) : Nat := fieldBytes h i n
  if f 0 2 ≠ 0x5352 ∨ f 2 2 ≠ 0x0100 ∨ f 0xFC 4 ≠ crc32Bytes (h.take 0xFC) then 1
  else if f 0x17 1 ≠ 0 ∨ f 0x6C 0x90 ≠ 0 ∨ f 0x16 1 < 2 ∨ 32 < f 0x16 1 then 2
  else if (match s.geom p with | some g => f 0x10 2 != g.w || f 0x12 2 != g.h | none => true) then 3
  else
    let wo := f 0x1C 4
    let wl := f 0x20 4
    let uo := f 0x24 4
    let ul := f 0x28 4
    let inside (o n : Nat) : Bool := 0x1C0 ≤ o && o + n ≤ 0xF00000
    if wl % 2 ≠ 0 ∨ ul ≠ f 0x10 2 * f 0x12 2 / 2 ∨ ¬ inside wo wl ∨ ¬ inside uo ul ∨ ¬ (wo + wl ≤ uo ∨ uo + ul ≤ wo) then 4 else 0

/-- The issuer keys of the SLATE_POLICY section, 64 bytes each (Table 15.7) (PRESUMED, log entry 21). -/
def issuerKeys (s : State) : List (List Byte) :=
  let b := sectionBody s.boot.plan 0x0A
  (List.range (wordAt b 65 % 16)).map fun k => bytesOfWords ((b.drop (66 + 32 * k)).take 32)

/-- The first step of R308 that the certificate fails: 1 or 2, or 0. -/
def certCheck (s : State) (d : SlateData) : Nat :=
  let c := d.cert
  let key := (issuerKeys s).find? fun k => (sha256 k).take 8 == (c.drop 0x0C).take 8
  match key with
  | none => 1
  | some k =>
    if !p256.verifyBytes k ((c.drop 0x80).take 64) (sha256 (c.take 0x80)) then 1
    else if fieldBytes c 4 8 ≠ fieldBytes d.header 8 8 ∨ (c.drop 0x54).take 32 ≠ sha256 d.header then 2 else 0

/-- The body checks 0x6 and 0x7 of Table 10.11. -/
def bodyCheck (h : List Byte) (set : List Word) (ul : List Byte) : Nat :=
  if sha256 (bytesOfWords set) ≠ (h.drop 0x2C).take 32 ∨ setNStates set ≠ fieldBytes h 0x16 1 ∨ 2 * set.length ≠ fieldBytes h 0x20 4 then 6
  else if sha256 ul ≠ (h.drop 0x4C).take 32 then 7 else 0

/-- A record check fails: the slate is not driven, and what was kept for its port is discarded (R159, R307). -/
def attachFails (s : State) (p code : Nat) : State :=
  let s := s.regSetF (portReg Reg.SL_REC p) 3 0 code
  let s := logEv (s.updPort p fun t => { t with slate := none, drivable := false, pendingAt := none, challenge := [], authStage := 0, set := none }) 0x4042 .action 6 p
  let s := ((s.regionsOn p).filter (·.lost)).foldl discardRegion s
  raiseSl (dropUnused s) 2 p

/-- The slate's user layer, where its serial is the one the layer's entry names (R420, R421). -/
def layerOf (s : State) (p : Nat) (serial : BitVec 64) : Option Layer :=
  match s.boot.layers[p]? with
  | some l => if l.serial = serial then some l else none
  | none => none

/-- The wear counters that a slate starts from (R312): the valid copy with the higher GEN, else zero. -/
def startCounts (n : Nat) (a b : List Byte) : Option (List Byte) :=
  match lifeValid n a, lifeValid n b with
  | true, true => if fieldBytes a 4 4 < fieldBytes b 4 4 then some b else some a
  | true, false => some a
  | false, true => some b
  | false, false => none

/-- The state plane of a slate whose image is not known: S = T = REFSTATE, OPEN = 0, HELD = 0, TRIM from the layers; its pending plane is cleared (R421). -/
def fillPlane (s : State) (p : Nat) : State :=
  match (s.port p).slate, s.setOf p with
  | some sl, some st =>
    let ref := setRefState st.words
    (rectPixels ⟨0, 0, sl.width, sl.height⟩).foldl (fun s q =>
      let s := s.setPixel p q.1 q.2 (trimAt sl q.1 q.2 * 1024 + ref * 33)
      match s.pixelIn 0x02 p q.1 q.2 with | some a => memSet s a 0 | none => s) s
  | _, _ => s

/-- The trim classes of the pixels of a slate attached in operation, open ones apart (R307); S and T stay (DEDUCED, log entry 36). -/
def takeTrims (s : State) (p : Nat) : State :=
  match (s.port p).slate with
  | some sl =>
    (rectPixels ⟨0, 0, sl.width, sl.height⟩).foldl (fun s q =>
      let w := s.pixel p q.1 q.2
      if psOpen w then s else s.setPixel p q.1 q.2 (withTrim s p q.1 q.2 w)) s
  | none => s

/-- CLEAR over the whole of an unknown slate (R422): class NORMAL, no request. -/
def clearUnknown (s : State) (p : Nat) : State :=
  match (s.port p).slate, (List.finRange 64).find? (fun q => q.val == p) with
  | some sl, some q => (formRegion s 0 0 2 none false q ⟨0, 0, sl.width, sl.height⟩).1
  | _, _ => s

/-- A record whose header and authentication passed: its header is held to the position once more, which a plan swap may have changed while it was authenticated (R19, R417), its body is checked, its set made resident, its counters taken, and the lost regions of the port resolved (R307, R312, R159). -/
def attachBody (s : State) (p : Nat) (d : SlateData) : State :=
  let cache := match s.boot.cached[p]? with | some (some c) => if c.1 = d.header then some c else none | _ => none
  let (set, ul) := match cache with
    | some c => if bodyCheck d.header c.2.1 c.2.2 = 0 then (c.2.1, c.2.2) else (d.set, d.underlay)
    | none => (d.set, d.underlay)
  let hc := headerCheck s p d
  if hc ≠ 0 then attachFails s p hc else
  let bc := bodyCheck d.header set ul
  if bc ≠ 0 then attachFails s p bc else
  let s := s.updPort p fun t => { t with set := none }
  let s := dropUnused s
  match checkSet set (residentArea - residentUsed s) with
  | some f => attachFails (loadFailed s p f) p 8
  | none =>
    let h := d.header
    let serial := BitVec.ofNat 64 (fieldBytes h 8 8)
    let w := fieldBytes h 0x10 2
    let v := fieldBytes h 0x12 2
    let n := divCeil w 64 * divCeil v 64
    let layer := layerOf s p serial
    let life := startCounts n d.lifeA d.lifeB
    let bs := life.getD []
    let gen (c : List Byte) : Option Nat := if lifeValid n c then some (fieldBytes c 4 4) else none
    let sl : Slate :=
      { header := h, serial := serial, width := w, height := v, nstates := fieldBytes h 0x16 1, rated := fieldBytes h 0x18 4, underlay := ul,
        overlay := (layer.bind (·.overlay)).getD [], frames := fieldBytes bs 8 8, light := fieldBytes bs 0x10 4,
        blocks := (List.range n).map fun i => fieldBytes bs (0x20 + 4 * i) 4, genA := gen d.lifeA, genB := gen d.lifeB, lline := d.lline, unknown := false }
    let known := match s.boot.cached[p]? with | some (some c) => fieldBytes c.1 8 8 == serial.toNat | _ => false
    let s := (s.regSetF (portReg Reg.SL_REC p) 3 0 0).regSet (portReg Reg.SL_SERIAL p) serial.toNat 4
    let s := s.updPort p fun t => { t with slate := some sl, drivable := true, pendingAt := none, challenge := [], authStage := 0, lifeWarn := false, expired := false }
    let (s, res) := takeModes (takeOffset s p serial) p set ((layer.map (·.modes)).getD [])
    let s := makeResident s p res
    let s := { s with boot := { s.boot with cached := s.boot.cached.set p (some (h, set, ul)) } }
    let s := if life.isNone then logEv s 0x4052 .action 6 p else s
    let s := if railsMatch s (s.courseOf p) set then s else logEv s 0xB012 .action 3 p
    let s := noteLife (raiseSl (logEv s 0x4070 .note 6 p ((wordsOfNat 4 serial.toNat).map BitVec.toNat)) 2 p) p
    let old := match s.boot.layers[p]? with | some l => l.serial != serial && l.serial != 0 | none => false
    let s := if old && decide (17 ≤ s.boot.wm) then logEv s 0x9011 .note 0 p else s
    let w18 := (s.boot.recs.getD 18 WmRec.reset).result
    if w18 = 0 ∨ w18 = 5 then s.updSlate p fun sl => { sl with unknown := !known } else
    takeTrims (resolveLost s p true) p

/-- The outcome of authentication by the policy that the attach began with (R308, R309, Table 15.9): step is 0 for success. -/
def authDone (s : State) (p : Nat) (d : SlateData) (step : Nat) : State :=
  let s := s.regSetF (portReg Reg.SL_REC p) 7 4 step
  let pol := (s.port p).authPol
  if step = 0 then attachBody s p d
  else if pol = 1 then attachBody (logEv s 0x4041 .note 6 p) p d
  else attachFails (logEv s 0x4040 .action 6 p) p 5

/-- The challenge is written to the bridge's mailbox (R308 step 3); the byte that asks for the signature follows once it is there. -/
def sendChallenge (s : State) (p : Nat) (d : SlateData) : State :=
  let bs := (List.range 8).flatMap fun i => bytesOfNat 4 (Config.random (s.freeCtr + i)).toNat
  let s := { s with freeCtr := s.freeCtr + 8 }
  addXfers (s.updPort p fun t => { t with pendingAt := some d, challenge := bs, polls := 0, authStage := 1 }) p [⟨true, 0xFE0000, 32, bs⟩]

/-- The answer of a mailbox transaction (R308 steps 3 to 5): the second write follows the first, and a write that fails ends step 3; the signature is read once byte 0x21 is 0x01, and verified with PUBKEY; a signature that cannot be read fails step 5. -/
def authAnswer (s : State) (p : Nat) (x : Trans) (good : Bool) (data : List Byte) : State :=
  let t := s.port p
  let stage (n : Nat) : State := s.updPort p fun t => { t with authStage := n }
  match t.pendingAt with
  | none => s
  | some d =>
    match t.authStage with
    | 1 => if x.write && x.addr == 0xFE0000 then (if good then addXfers (stage 2) p [⟨true, 0xFE0020, 1, [1]⟩] else authDone s p d 3) else s
    | 2 => if x.write && x.addr == 0xFE0020 then (if good then stage 3 else authDone s p d 3) else s
    | 3 => if !x.write && x.addr == 0xFE0021 && good && data == [1] then addXfers (stage 4) p [⟨false, 0xFE0040, 64, []⟩] else s
    | 4 =>
      if x.write || x.addr != 0xFE0040 then s
      else authDone s p d (if good && p256.verifyBytes ((d.cert.drop 0x14).take 64) data (sha256 (t.challenge ++ (d.cert.drop 0x54).take 32)) then 0 else 5)
    | _ => s

/-- A slate is present on a port (R307): its record is checked in the order of Table 10.11 (DEDUCED, log entry 36). -/
def execSlateAttach (p : PortId) (d : SlateData) (s : State) : Out :=
  if d.header.length ≠ 256 ∨ d.cert.length ≠ 192 then .fault .illFormed else
  let t := s.port p.val
  if t.st ≠ .active || t.slate.isSome || t.pendingAt.isSome || !s.portEn p.val then ok s else
  let c := headerCheck s p.val d
  let s := (s.regSet (portReg Reg.SL_SERIAL p.val) (fieldBytes d.header 8 8) 4).regSetF (portReg Reg.SL_REC p.val) 7 4 0
  if c ≠ 0 then ok (attachFails s p.val c) else
  let pol := s.regF (portReg Reg.SL_PCFG p.val) 11 10
  if pol = 0 then ok (attachBody s p.val d) else
  let s := s.updPort p.val fun t => { t with authPol := pol }
  match certCheck s d with
  | 0 => ok (sendChallenge s p.val d)
  | k => ok (authDone s p.val d k)

/-- READ_DATA answers the transaction of its TAG (R300, R304): busy is retried, any other nonzero RSTAT ends it with an error. LLINE resolves the lines in doubt (R305). -/
def execReadData (p : PortId) (tag : BitVec 4) (rstat : Byte) (data : List Byte) (s : State) : Out :=
  if (s.port p.val).st ≠ .active then ok s else
  match (s.port p.val).trans.find? (·.tag == tag) with
  | none => ok (countProto s p.val)
  | some x =>
    if rstat = 3 ∧ !x.dead then ok (s.updPort p.val fun t => { t with trans := t.trans.map fun y => if y.tag == tag then { y with busy := true } else y }) else
    let s := startXfers (s.updPort p.val fun t => { t with trans := t.trans.filter (·.tag != tag) }) p.val
    if x.dead then ok s else
    if x.isLife then ok (lifeChunk s p.val (rstat == 0)) else
    if 0xFE0000 ≤ x.addr ∧ x.addr < 0xFE0100 then ok (authAnswer s p.val x (rstat == 0) data) else
    if !x.write && x.addr == 0xFF0000 && rstat == 0 && data.length == 2 then
      let s := s.updSlate p.val fun sl => { sl with lline := wd (natOfBytes data) }
      if canRecover s p.val then ok (resolveLost s p.val true)
      else ok (s.setRegions (s.disp.regions.map fun r => if r.port.val == p.val && r.lost then resolveDoubt r (wd (natOfBytes data)) else r))
    else ok s

/-- Every 1 ms the LW6400 reads byte 0x21 of the mailbox (R308 step 5); a signature that is not there 100 ms after step 3 fails step 5. What the mailbox then holds comes by READ_DATA, which answers the reads; the operands, the bridge's own view of it, change nothing. -/
def execAuthPoll (p : PortId) (_flag : Byte) (_sig : List Byte) (s : State) : Out :=
  let t := s.port p.val
  match t.pendingAt with
  | none => ok s
  | some d =>
    if t.authStage < 3 then ok s
    else if 99 ≤ t.polls then ok (authDone s p.val d 5)
    else
      let s := s.updPort p.val fun t => { t with polls := t.polls + 1 }
      ok (if t.st = .active ∧ t.authStage = 3 ∧ !(t.xfers.any (·.addr == 0xFE0021) || t.trans.any (·.addr == 0xFE0021)) then addXfers s p.val [⟨false, 0xFE0021, 1, []⟩] else s)

end Sys2Proof.Machine
end

