-- ==== Sys2Proof/Machine/RailRows.lean ====
section
/-! DEFINITION. The commands of the rail die (Chapter 11): power-on and power-off of courses, rail faults, flashing loops and front lights. -/
namespace Sys2Proof.Machine
open Sys2Proof

/-- Whether a course's power-ons are refused: a side-lane RAILS_OFF is in force on it (R397), or the device is in SAFE-DRIVE (R406, Table 15.3). -/
def railsRefused (s : State) (co : Nat) : Bool := bitN s.side.railsOff.toNat co || s.boot.outcome == .safeDrive

/-- RL_SEQ_CTRL.ON[n] (R325, R326). -/
def execCoursePowerOn (co : CourseId) (s : State) : Out := ok (requestOn s co.val)

/-- RL_SEQ_CTRL.OFF[n] (R325, R326). -/
def execCoursePowerOff (co : CourseId) (s : State) : Out := ok (requestOff s co.val false)

/-- A port starts a new session before its course's next frame (R328 step 5): at once where it is ACTIVE, or in CONFIG, whose CREDIT_SYNC then carries RESET = 1, and else when it next reaches CONFIG. -/
def freshSession (s : State) (p : Nat) : State :=
  match (s.port p).st with
  | .active => newSession s p
  | .config => newSession (s.updPort p fun t => { t with syncReset := true }) p
  | _ => s.updPort p fun t => { t with newSlate := true }

/-- A waiting power-on begins at step 1 of Table 11.2 (R322), unless it is refused (R397, R406); out of FAULT, each port of the course starts a new session (R328 step 5). -/
def execPowerOnStart (co : CourseId) (s : State) : Out :=
  let c := s.course co.val
  if !c.onWait || !(c.rail == .off || c.rail == .fault) || c.pathStop || railsRefused s co.val || !canPowerOn s co.val then ok s else
  let s := trimBoundary s co.val
  let s := if c.rail = .fault then (s.portsOf co.val).foldl freshSession s else s
  ok (raiseRl (s.updCourse co.val fun c => { c with rail := .rising, step := 1, good := [], onWait := false, offWait := false, onAfter := false, retryWait := false, hardFault := false,
                                                    tgt := railTargets s co.val }) 1 co.val)

/-- A course is UP (Table 11.2 step 5): lost regions of it recover (R328 step 6). -/
def courseUp (s : State) (co : Nat) : State :=
  let s := s.updCourse co fun c => { c with rail := .up, step := 0, good := [], autoOff := false, offWait := false, pathLost := false }
  let s := raiseRl (logEv s 0x5001 .note 7 co) 1 co
  let s := (s.portsOf co).foldl (fun s p => if (s.regionsOn p).any (·.lost) then tryRecover s p else s) s
  lightCheck s co

/-- A rail of the running step is power-good (R321): the next step starts when all of them are (Table 11.2). -/
def execRailPowerGood (co : CourseId) (rail : Fin 9) (s : State) : Out :=
  let c := s.course co.val
  if c.rail ≠ .rising ∨ !(stepRails c.step).contains rail.val ∨ c.good.contains rail then ok s else
  let good := c.good ++ [rail]
  if !(stepRails c.step).all (fun r => good.any (·.val == r)) then ok (s.updCourse co.val fun c => { c with good := good }) else
  if 5 ≤ c.step then ok (courseUp s co.val) else ok (s.updCourse co.val fun c => { c with step := c.step + 1, good := [] })

/-- A step of Table 11.2 times out: cause 0x1 (R327). -/
def execPowerOnStepTimeout (co : CourseId) (s : State) : Out :=
  let c := s.course co.val
  if c.rail ≠ .rising then ok s else
  let rail := ((sortBy (fun a b => decide (a ≤ b)) (stepRails c.step)).find? fun r => !c.good.any (·.val == r)).getD 0
  ok (promptPath s co.val 1 rail)

/-- Once no span of the course runs, the power-off begins at the first boundary with no frame in progress (R323, R325). -/
def execPowerOffStart (co : CourseId) (s : State) : Out :=
  let c := s.course co.val
  if c.rail ≠ .up ∨ !c.offWait ∨ spanRuns s co.val ∨ c.frameOpen then ok s else ok (startPowerOff s co.val)

/-- A course enters FAULT at the end of a prompt or cut path; it stays there, with EV-0x5012, where no automatic power-on follows (R330). -/
def enterFault (s : State) (co : Nat) : State :=
  let c := s.course co
  let again := c.retryWait && decide (retriesInHour s co < s.regF (rlReg Reg.RL_CO_CFG co) 14 12)
  let s := raiseRl (s.updCourse co fun c => { c with rail := .fault, step := 0, retryWait := again, pathStop := false, tgt := List.replicate 9 0, onWait := c.onAfter, onAfter := false }) 1 co
  if again then s else logEv s 0x5012 .degraded 7 co

/-- A course whose power-off ends: OFF, or FAULT after a prompt path. A kept ON then waits to begin (R326). -/
def courseOff (s : State) (co : Nat) : State :=
  if (s.course co).pathStop then enterFault s co else
  let s := s.updCourse co fun c => { c with rail := .off, step := 0, tgt := List.replicate 9 0, onWait := c.onAfter, onAfter := false }
  let s := raiseRl s 1 co
  if s.power.vinStep = 0 ∨ s.power.sleepOrd then logEv s 0x5002 .note 7 co else s

/-- A rail passes the level at which the next step of Table 11.3 begins: at step 3 the line guard ends, at step 8 the course is OFF (R323); after a cut path, the rails are discharged (R329). -/
def railDischarge (s : State) (co : Nat) : State :=
  let s := endCreditWait s co
  let c := s.course co
  match c.rail with
  | .falling =>
    let s := if c.step = 2 then (s.portsOf co).foldl (fun s p => s.updPort p fun t => { t with guardLine := none }) s else s
    if 7 ≤ c.step then courseOff s co else s.updCourse co fun c => { c with step := c.step + 1 }
  | .fault => if c.pathStop then lightCheck (s.updCourse co fun c => { c with pathStop := false }) co else s
  | _ => s

/-- Whether the rail die detects faults on a course (R327). -/
def faultsSeen (s : State) (co : Nat) : Bool := let r := (s.course co).rail; r == .rising || r == .up || r == .falling

/-- One fault of Table 11.4 on one course. -/
def faultOn (s : State) (co cause rail : Nat) : State :=
  if !faultsSeen s co then s else
  match cause with
  | 2 => if (s.course co).rail = .up then promptPath s co 2 rail else s
  | 3 | 4 | 7 => cutPath s co cause rail
  | 5 | 6 => promptPath s co cause rail
  | _ => s

/-- A fault of Table 11.4; causes 0x6 and 0x7 act on every such course (R327) (DEDUCED, log entry 37). -/
def execRailFault (co : CourseId) (cause : BitVec 4) (rail : Fin 9) (s : State) : Out :=
  if cause = 6 ∨ cause = 7 then ok ((List.range 8).foldl (fun s c => faultOn s c cause.toNat rail.val) s) else ok (faultOn s co.val cause.toNat rail.val)

/-- The automatic power-on after a soft fault, within the limit; after cause 0x6 once the rail die is below 105 °C (R330). -/
def execFaultRetry (co : CourseId) (s : State) : Out :=
  let c := s.course co.val
  let hot := s.regF (rlReg Reg.RL_CO_FAULT co.val) 15 12 = 6 ∧ 105 * 16 ≤ toSigned 16 (s.reg Reg.RL_TEMP)
  if c.rail ≠ .fault ∨ !c.retryWait ∨ hot ∨ railsRefused s co.val then ok s else
  if retriesInHour s co.val < s.regF (rlReg Reg.RL_CO_CFG co.val) 14 12 then
    ok (s.updCourse co.val fun c => { c with onWait := true, retryWait := false, retryAt := c.retryAt.filter (fun t => decide (s.aon.tick.toNat < t + 3600 * 32768)) ++ [s.aon.tick.toNat] })
  else ok (logEv (s.updCourse co.val fun c => { c with retryWait := false }) 0x5012 .degraded 7 co.val)

/-- IDLEOFF seconds without a frame (R325); 0: never. -/
def execIdleoffTimeout (co : CourseId) (s : State) : Out :=
  let c := s.course co.val
  if s.regF (rlReg Reg.RL_CO_CFG co.val) 11 0 = 0 ∨ c.rail ≠ .up ∨ c.frameOpen ∨ c.planned then ok s else ok (requestOff s co.val true)

/-! Flashing loops (R331 to R334) -/

/-- Whether a loop is ignored: masked, or of a port that PORTS does not name (R334). -/
def loopIgnored (s : State) (p : Nat) : Bool := !s.portEn p || bitN (s.reg Reg.RL_LOOPMASK 4) p

/-- The band of a reading in units of 2 Ω (R332): 0 OK, 1 WARN, 2 OPEN. -/
def loopBand (s : State) (v : Nat) : Nat :=
  if s.regF Reg.RL_LOOPTHR 7 0 * 64 < 2 * v then 2 else if s.regF Reg.RL_LOOPTHR 15 8 * 16 < 2 * v then 1 else 0

/-- One reading of one loop. -/
def loopRead (s : State) (p ohms : Nat) : State :=
  if !s.portEn p then s.regSet (Reg.RL_LOOP + p) (3 * 16384) else
  let v := satTo 8191 (ohms / 2)
  if loopIgnored s p then { s.regSet (Reg.RL_LOOP + p) (3 * 16384 + v) with loops := s.loops.modify p fun l => { l with openN := 0, warnN := 0, okN := 0 } } else
  let b := loopBand s v
  let l := s.loops.getD p ⟨0, 0, 0, false⟩
  let s := s.regSet (Reg.RL_LOOP + p) (b * 16384 + v)
  let n : Loop := ⟨if b = 2 then l.openN + 1 else 0, if b = 1 then l.warnN + 1 else 0, if b = 0 then satTo 10 (l.okN + 1) else 0, l.warned⟩
  let n := if 10 ≤ n.okN then { n with warned := false } else n
  let warn := 3 ≤ n.warnN && !n.warned
  let n := if warn then { n with warned := true } else n
  let crack := 3 ≤ n.openN && !cracked s p
  let n := if crack then { n with openN := 0 } else n
  let s := { s with loops := s.loops.set p n }
  let s := if warn then raiseRl (logEv s 0x5020 .note 7 p) 3 p else s
  if crack then crackLoop s p else s

/-- One measurement of every loop, every 10 ms (R331); a reading in ohms per port (DESIGN CHOICE, log entry 12) (DEDUCED, log entry 37). -/
def execLoopMeasurement (readings : List Nat) (s : State) : Out :=
  if readings.length ≠ 64 then .fault .illFormed else ok (readings.zipIdx.foldl (fun s e => loopRead s e.2 e.1) s)

/-- A write of 1 to RL_LOOPCRACK bit p: the loop is no longer cracked, and needs 3 further OPEN readings to be cracked again (R334). Lost regions of the port recover at the course's next UP or at an attach (R190, R328) (DEDUCED, log entry 37). -/
def clearCrack (s : State) (p : Nat) : State :=
  if !bitN (s.reg Reg.RL_LOOPCRACK 4) p then s else
  let s := s.regSetF Reg.RL_LOOPCRACK p p 0 4
  let s := { s with loops := s.loops.modify p fun l => { l with openN := 0 } }
  lightCheck s (s.courseOf p)

/-- LOOPCRACK_CLEAR: the register takes the value (R8). -/
def execLoopcrackClear (p : PortId) (s : State) : Out := ok (clearCrack (s.dropHeld Reg.RL_LOOPCRACK 4) p.val)

/-- RL_LOOPMASK bit p: the loop is ignored, or watched again; a loop still marked cracked then acts as R333 says (R334) (DEDUCED, log entry 37). -/
def maskLoop (s : State) (p : Nat) (on : Bool) : State :=
  if bitN (s.reg Reg.RL_LOOPMASK 4) p = on then s else
  let s := logEv (s.regSetF Reg.RL_LOOPMASK p p (b2n on) 4) 0x5022 .note 7 p
  let s := { s with loops := s.loops.modify p fun l => { l with openN := 0, warnN := 0, okN := 0 } }
  if on then lightCheck s (s.courseOf p) else if cracked s p then crackLoop s p else s

/-- LOOPMASK_WRITE: the register takes the value (R8). -/
def execLoopmaskWrite (p : PortId) (on : Bool) (s : State) : Out := ok (maskLoop (s.dropHeld Reg.RL_LOOPMASK 4) p.val on)

/-! Front lights (R335 to R337) -/

/-- The conditions of R336 hold: FL_EN[n] rises. -/
def execFrontLightEnable (co : CourseId) (s : State) : Out :=
  if lightEn s co.val ∧ lightAllowed s co.val then ok (s.updCourse co.val fun c => { c with flEn := true, lightHeld := false }) else ok (lightCheck s co.val)

/-- FL_PWM[n] starts 1 ms after FL_EN[n] rose; its first period begins with the DUTY written (R335, R337). -/
def execFrontLightPwmStart (co : CourseId) (s : State) : Out :=
  if !(s.course co.val).flEn || (s.course co.val).flPwm then ok s else
  ok (s.updCourse co.val fun c => { c with flPwm := true, dutyEff := BitVec.ofNat 12 (s.regF (rlReg Reg.RL_CO_LIGHT co.val) 11 0) })

/-- A condition of R336 fails: FL_PWM[n] and FL_EN[n] go low together (R337). -/
def execFrontLightDisable (co : CourseId) (s : State) : Out := ok (lightCheck s co.val)

/-- The next PWM period takes a new DUTY (R335). -/
def execPwmPeriodStart (co : CourseId) (s : State) : Out :=
  if !(s.course co.val).flPwm then ok s else
  ok (s.updCourse co.val fun c => { c with dutyEff := BitVec.ofNat 12 (s.regF (rlReg Reg.RL_CO_LIGHT co.val) 11 0) })

end Sys2Proof.Machine
end

