-- ==== Sys2Proof/Machine/PlanCheck.lean ====
section
/-! DEFINITION. Key slots and signature blocks (R409, R410), and the checks of a roof plan in the order of Table 15.8 (R412, R413). -/
namespace Sys2Proof.Machine
open Sys2Proof

/-! Keys (R409, R410) -/

/-- SEC_KEYS.REVOKED: the fuses, with what this device has revoked since. -/
def revokedKeys (s : State) : Nat := (Config.revokedKeys ||| s.sec.revoked).toNat

/-- A usable key slot: fused and not revoked (R409). -/
def keyUsable (s : State) (k : Nat) : Bool := bitN Config.fusedKeys.toNat k && !bitN (revokedKeys s) k

/-- The usable slots among the vendor slots 0 to 3, or among the integrator slots 4 to 7. -/
def usableKeys (s : State) (integrator : Bool) : List Nat := (List.range 8).filter fun k => (4 ≤ k) == integrator && keyUsable s k

/-- The digest that a slot holds. -/
def slotDigest (k : Nat) : List Byte := match (List.finRange 8).find? (·.val == k) with | some f => Config.keyDigest f | none => []

/-- Whether a signature block of 98 words passes over an object's signed words (R410). -/
def sigPasses (s : State) (integrator : Bool) (block signed : List Word) : Bool :=
  let k := wordAt block 0 % 8
  let key := bytesOfWords ((block.drop 2).take 48)
  (usableKeys s integrator).contains k && sha384 key == slotDigest k &&
    p384.verifyBytes key (bytesOfWords ((block.drop 50).take 48)) (sha384 (bytesOfWords signed))

/-! Section bodies -/

/-- The types that a plan may hold (Table 15.7). -/
def planTypes : List Nat := [1, 2, 3, 4, 5, 6, 7, 8, 9, 10, 11, 12, 0x7F]

/-- The sections that a plan must hold. -/
def planRequired : List Nat := [1, 2, 4, 5, 7, 8, 10, 0x7F]

/-- The length of a section's body; none where the body gives it. -/
def bodyLen : Nat → Option Nat
  | 1 => some 258 | 2 => some 64 | 3 => some 768 | 5 => some 68 | 6 => some 9 | 7 => some 16 | 8 => some 234
  | 9 => some 23 | 11 => some 1056 | 12 => some 1 | 0x7F => some 98 | _ => none

/-- Whether a body has the length that Table 15.7 gives its section. -/
def bodyLenOk (x : Section) : Bool :=
  match bodyLen x.type with
  | some n => x.body.length == n
  | none => if x.type = 4 then x.body.length % 8 == 1 else x.body.length == 66 + 32 * wordAt x.body 65

/-- Whether every word i of a body keeps the bits of its mask zero. -/
def maskZero (b : List Word) (l : List (Nat × Nat)) : Bool := l.all fun e => wordAt b e.1 &&& e.2 == 0

/-- The reserved bits of RAILS words, by place in the 8-word course block. -/
def railsRsv (j : Nat) : Nat := match j with | 0 => 0 | 1 | 2 => 0xFE00 | 3 | 4 | 5 => 0xFF00 | 6 => 0xFC00 | _ => 0xF000

/-- Whether the reserved fields of a section's body are zero (Table 15.8 code 0x06). -/
def bodyRsvOk (x : Section) : Bool :=
  let b := x.body
  match x.type with
  | 2 => maskZero b ((List.range 64).map fun i => (i, 0x0FC0))
  | 3 => (List.range 48).all fun k => maskZero (b.drop (16 * k)) ([(0, 0x70FF), (8, 0x0707)] ++ (List.range 7).map fun i => (9 + i, 0xFFFF))
  | 4 => maskZero b [(0, 0xFFFC)] && (List.range (b.length / 8)).all fun k => maskZero (b.drop (1 + 8 * k)) [(0, 0xC000), (1, 0xFFFF), (4, 0xFFF0)]
  | 5 => maskZero b ([(0, 0x7F80), (1, 0x7FFF), (3, 0xFFFF)] ++ (List.range 64).map fun i => (4 + i, railsRsv (i % 8)))
  | 6 => maskZero b ([(0, 0xFFFC)] ++ (List.range 8).map fun i => (1 + i, 0x7000))
  | 7 => maskZero b ([(2, 0x7C00), (4, 0xFF80), (6, 0xFFFF), (7, 0xFFFF)] ++ (List.range 8).map fun i => (8 + i, 0x80E0))
  | 8 => maskZero b ((List.range 16).map (fun i => (2 * i + 1, 0x03FF)) ++ (List.range 16).map (fun i => (32 + 3 * i + 2, 0xFFF0)) ++
      (List.range 16).flatMap (fun i => [(80 + 8 * i + 2, 0xFFF0), (80 + 8 * i + 5, 0xFFF0), (80 + 8 * i + 6, 0xFFFC), (80 + 8 * i + 7, 0xFFFF)]) ++
      (List.range 3).map (fun i => (208 + i, 0xF000)) ++ (List.range 16).map (fun i => (211 + i, 0xF0F0)) ++ (List.range 7).map fun i => (227 + i, 0x7FF0))
  | 10 => maskZero b ((List.range 64).map (fun i => (i, 0xFFFC)) ++ [(64, 0xFFF0)])
  | 11 => maskZero b ((List.range 16).flatMap (fun k => [(2 * k, 0x001F), (2 * k + 1, 0x0200)]) ++ (List.range 512).map fun i => (32 + 2 * i, 0x1FFF))
  | 0x7F => maskZero b [(0, 0xFFF8), (1, 0xFFFF)]
  | _ => true

/-- Whether a number lies in a range. -/
def within (v lo hi : Nat) : Bool := lo ≤ v && v ≤ hi

/-- Whether the courses' words of RAILS lie in range; VGH and VGL may be 0, in a course that is not configured (Table 11.11). -/
def railsInRange (b : List Word) : Bool :=
  (List.range 8).all fun n =>
    let w (j : Nat) : Nat := wordAt b (4 + 8 * n + j)
    (w 1 == 0 || within (w 1) 180 280) && (w 2 == 0 || within (w 2) 180 280) && within (w 3) 25 160 && within (w 4) 25 160 && within (w 5) 25 160 &&
      decide (-400 ≤ toSigned 10 (w 6)) && decide (toSigned 10 (w 6) ≤ 100)

/-- Whether the fields of a section lie in the ranges of their register tables (code 0x07). -/
def bodyInRange (plan : List Word) (x : Section) : Bool :=
  let b := x.body
  let w := wordAt b
  match x.type with
  | 1 => w 0 != 0 && w 1 != 0
  | 5 => within (w 0 % 128) 5 17 && w 2 % 256 != 0 && decide ((w 2 / 256) * 16 < (w 2 % 256) * 64) && railsInRange b
  | 6 => w 0 % 4 != 3
  | 7 => within (w 0) 500 20000 && decide (w 1 % 256 ≤ 100) && within (w 3 / 256) 60 94 && within (w 3 % 256) 1 32 && decide (w 4 % 128 ≤ 120) &&
      bitsN (w 5) 14 12 != 0 && decide (10 ≤ w 5 % 4096) &&
      (List.range 8).all fun n =>
        let named := (List.range 64).any fun p => bitN (planPort plan p) 15 && bitsN (planPort plan p) 14 12 == n
        within (w (8 + n) % 32) 1 16 && (within (bitsN (w (8 + n)) 14 8) 25 120 || (bitsN (w (8 + n)) 14 8 == 0 && !named))
  | 10 => (List.range 64).all (fun p => w p % 4 != 3) && bitsN (w 64) 3 2 != 3 && w 64 % 4 != 3 && decide (w 65 ≤ 8)
  | 12 => (List.range 8).all fun n => bitsN (w 0) (2 * n + 1) (2 * n) != 3
  | _ => true

/-- GEOMETRY and PORTS (code 0x08): R15, R16, slates inside the roof and apart, and each enabled port at a position of its own. -/
def geometryOk (plan : List Word) : Bool :=
  let b := sectionBody plan 1
  let g (k : Nat) : Geom := planGeom plan k
  let used := (List.range 64).filter fun k => (g k).w != 0
  let ports := (List.range 64).filter fun p => bitN (planPort plan p) 15
  let pos (p : Nat) : Nat := planPort plan p % 64
  let course (p : Nat) : Nat := bitsN (planPort plan p) 14 12
  used.all (fun k => let x := g k; within x.w 8 3840 && x.w % 8 == 0 && within x.h 1 2160 && decide (x.x + x.w ≤ wordAt b 0) && decide (x.y + x.h ≤ wordAt b 1)) &&
  used.all (fun k => used.all fun j => k == j ||
    (let x := g k; let y := g j; decide (x.x + x.w ≤ y.x) || decide (y.x + y.w ≤ x.x) || decide (x.y + x.h ≤ y.y) || decide (y.y + y.h ≤ x.y))) &&
  !ports.isEmpty && decide (ports.map pos).Nodup && ports.all (fun p => used.contains (pos p)) &&
  (List.range 8).all fun n => decide ((ports.filter fun p => course p == n).length ≤ 8)

/-- Where a kind of placement must lie: HBM, the vector store or the plan-defined area of the state store (Table 15.7, R45, R56). -/
def placeInside (s : State) (x : Placement) : Bool :=
  let e := x.base + x.size
  match x.kind with
  | 1 | 2 | 3 | 0x11 => decide (e ≤ 0x3F0000000)
  | 4 | 0x10 => decide (0x800000000 ≤ x.base) && decide (e ≤ 0x804000000)
  | 5 | 6 | 7 | 8 => decide (0xA03800000 ≤ x.base) && decide (e ≤ 0xA00000000 + s.ssWords)
  | _ => false

/-- MEMORY (code 0x09): placements inside their memories and the fitted capacity, none overlapping, the per-port set complete. -/
def memoryOk (s : State) (plan : List Word) : Bool :=
  let l := planPlacements plan
  let ports := (List.range 64).filter fun p => bitN (planPort plan p) 15
  l.all (placeInside s) &&
  l.zipIdx.all (fun x => l.zipIdx.all fun y => x.2 == y.2 || decide (x.1.base + x.1.size ≤ y.1.base) || decide (y.1.base + y.1.size ≤ x.1.base)) &&
  ports.all fun p => [1, 2, 3, 4, 5, 6].all fun k => (l.filter fun x => x.kind == k && x.port == p).length == 1

/-- CHAINS (code 0x0A): every slot valid by R84. -/
def chainsOk (plan : List Word) : Bool :=
  let b := sectionBody plan 3
  !hasSection plan 3 || (List.range 48).all fun k => let ws := (b.drop (16 * k)).take 16; !bitN (wordAt ws 0) 15 || patValid ws

/-- RINGS (code 0x0B): R63, the order of DPART, QCBASE alignment, and the QUEUE of R382. -/
def ringsOk (plan : List Word) : Bool :=
  let b := sectionBody plan 8
  let q (i : Nat) : Nat := dwordAt b (2 * i)
  let dp (i : Nat) : Nat := wordAt b (208 + i) % 4096
  (List.range 16).all (fun i => bitsN (q i) 27 26 != 0 || bitsN (q i) 29 28 == 0) && decide (dp 0 ≤ dp 1) && decide (dp 1 ≤ dp 2) &&
  (List.range 16).all (fun i => addrAt b (32 + 3 * i) % 8 == 0) &&
  (List.range 16).all fun i => let w := wordAt b (211 + i); !bitN w 3 || decide (2 ≤ bitsN (q (bitsN w 11 8)) 29 28)

/-- The steps of a MICROCODE body as a core's microcode store. -/
def microSteps (b : List Word) : WMap := ((b.drop 32).zipIdx).foldl (fun m e => wmapSet m e.2 e.1 0) []

/-- MICROCODE (code 0x0C): every entry accepted by R280. -/
def microcodeOk (plan : List Word) : Bool :=
  let b := sectionBody plan 11
  let ms := microSteps b
  !hasSection plan 11 || (List.range 16).all fun k => !bitN (wordAt b (2 * k)) 15 || microCheck ms k (wordAt b (2 * k)) (wordAt b (2 * k + 1)) == 0

/-- The header of a plan (code 0x01). -/
def planHeaderOk (ws : List Word) : Bool :=
  let n := dwordAt ws 3
  wordAt ws 0 == 0x4C52 && wordAt ws 1 == 0x504C && wordAt ws 2 == 0x0100 && wordAt ws 7 == 0 && within n 111 0x80000 && n == ws.length

/-- The type of the first section from word `pos` on that breaks the framing of a plan, after one of type `prev`: a type that is not defined or out of order, a reserved bit, a body of another length, an end past LENGTH, or no SIGNATURE at LENGTH. -/
def framingFrom (ws : List Word) : Nat → Nat → Nat → Option Nat
  | 0, _, prev => some prev
  | fuel + 1, pos, prev =>
    if pos = ws.length then (if prev = 0x7F then none else some prev) else
    let r := ws.drop pos
    let t := wordAt r 0 % 256
    let blen := dwordAt r 1
    if !planTypes.contains t || decide (256 ≤ wordAt r 0) || decide (t ≤ prev) || decide (r.length < 5 + blen) || !bodyLenOk ⟨t, (r.drop 3).take blen, true, true, 0⟩ then some t
    else framingFrom ws fuel (pos + 5 + blen) t

/-- The first section that breaks the framing of a plan (code 0x02), by its type. -/
def framingFault (ws : List Word) : Option Nat := framingFrom ws 64 8 0

/-- Whether a plan's signature passes (code 0x04): an integrator slot where any is usable, else a vendor slot; it signs every word through its own PUBKEY. -/
def planSigned (s : State) (ws : List Word) : Bool := sigPasses s (!(usableKeys s true).isEmpty) (sectionBody ws 0x7F) (ws.take (ws.length - 50))

/-- The first check of Table 15.8 that a plan fails: its code and section type; 0 where it passes. -/
def planCheck (s : State) (ws : List Word) : Nat × Nat :=
  let l := planSections ws
  if !planHeaderOk ws then (1, 0) else
  match framingFault ws with
  | some t => (2, t)
  | none =>
  match l.find? (fun x => !x.crcOk) with
  | some x => (3, x.type)
  | none =>
  if !planSigned s ws then (4, 0x7F) else
  match planRequired.find? (fun t => !hasSection ws t) with
  | some t => (5, t)
  | none =>
  match l.find? (fun x => !bodyRsvOk x) with
  | some x => (6, x.type)
  | none =>
  match l.find? (fun x => !bodyInRange ws x) with
  | some x => (7, x.type)
  | none =>
  if !geometryOk ws then (8, 1) else
  if !memoryOk s ws then (9, 4) else
  if !chainsOk ws then (0xA, 3) else
  if !ringsOk ws then (0xB, 8) else
  if !microcodeOk ws then (0xC, 11) else (0, 0)

/-- The check of a plan, with SYS_PLANCHK and EV-0xA002 (R413). -/
def checkPlan (s : State) (ws : List Word) : Nat × State :=
  let r := planCheck s ws
  let s := s.regSet Reg.SYS_PLANCHK (r.2 * 256 + r.1)
  (r.2 * 256 + r.1, if r.1 = 4 then logEv s 0xA002 .action 0 else s)

end Sys2Proof.Machine
end

