-- ==== Sys2Proof/Machine/Store.lean ====
section
/-! DEFINITION. What the state store keeps: the boot directory (R408), journal slots (R57, R191), firmware images (R411) and the user layer (R420). -/
namespace Sys2Proof.Machine
open Sys2Proof

/-- Whether the words [i, j) of a list are zero. -/
def zeroWords (ws : List Word) (i j : Nat) : Bool := ((ws.drop i).take (j - i)).all (· == 0)

/-- Words of a number put into a list from word i on. -/
def putWords (ws : List Word) (i k v : Nat) : List Word := ws.take i ++ wordsOfNat k v ++ ws.drop (i + k)

/-! The boot directory (R408, Table 15.5) -/

/-- A copy of the boot directory. -/
def dirCopy (s : State) (k : Nat) : List Word := ssReads s (0x800 * k) 2048

/-- Whether a copy is valid. -/
def dirValid (ws : List Word) : Bool :=
  wordAt ws 0 == 0x4244 && wordAt ws 1 == 0x0100 && decide (wordAt ws 4 < 32) && wordAt ws 15 == 0 && zeroWords ws 39 64 && zeroWords ws 1041 2046 &&
    dwordAt ws 2046 == crc32Words (ws.take 2046)

/-- The copy in use: the valid one with the higher GEN. -/
def dirInUse (s : State) : Option Nat :=
  match dirValid (dirCopy s 0), dirValid (dirCopy s 1) with
  | true, true => if dwordAt (dirCopy s 0) 2 < dwordAt (dirCopy s 1) 2 then some 1 else some 0
  | true, false => some 0
  | false, true => some 1
  | false, false => none

/-- The directory's words; every field at its default where no copy is valid. -/
def dirWords (s : State) : List Word := match dirInUse s with | some k => dirCopy s k | none => List.replicate 2048 0

/-- A flag of the directory: 0 FWNEXT, 1 PLANNEXT, 2 CLEAN, 3 SLEPT, 4 TRAINED. -/
def dirFlag (s : State) (i : Nat) : Bool := bitN (wordAt (dirWords s) 4) i

/-- The failure memory of waymark n (WMMEM): method of the latest pass, consecutive failures. -/
def dirMem (s : State) (n : Nat) : Nat × Nat :=
  let v := natOfWords (((dirWords s).drop 9).take 6) >>> (4 * n)
  (v / 4 % 4, v % 4)

/-- The other copy is written, at the priority of the directory (R58), with GEN one higher and its CRC last; CLEAN as given (R408) (DESIGN CHOICE, log entry 29). -/
def writeDir (s : State) (clean : Bool) (f : List Word → List Word) : State :=
  let old := dirWords s
  let ws := f old
  let ws := putWords (putWords (putWords ws 0 1 0x4244) 1 1 0x0100) 2 2 ((dwordAt old 2 + 1) % 4294967296)
  let ws := putWords ws 4 1 (setBitsN (wordAt ws 4) 2 2 (b2n clean))
  let ws := putWords ws 2046 2 (crc32Words (ws.take 2046))
  ssPut s 4 0 (match dirInUse s with | some 0 => 0x800 | _ => 0) ws

/-- A flag of a directory set. -/
def setFlag (i : Nat) (v : Bool) (ws : List Word) : List Word := putWords ws 4 1 (setBitsN (wordAt ws 4) i i (b2n v))

/-- One more consecutive failure of a waymark on record in a directory's words. -/
def failMem (n : Nat) (ws : List Word) : List Word :=
  let v := natOfWords ((ws.drop 9).take 6)
  putWords ws 9 6 (setBitsN v (4 * n + 1) (4 * n) (satTo 3 (bitsN v (4 * n + 1) (4 * n) + 1)))

/-- The failure memory of waymarks set to their first method with no failure. -/
def clearMem (l : List Nat) (ws : List Word) : List Word :=
  putWords ws 9 6 (l.foldl (fun v n => setBitsN v (4 * n + 3) (4 * n) 0) (natOfWords ((ws.drop 9).take 6)))

/-! Journal slots (R57, Table 2.8) -/

def slotBase (n : Nat) : Nat := 0x1800000 + n * 0x2000

/-- The records of a slot, 15 words each. -/
def slotBody (s : State) (n : Nat) : List Word := ssReads s (slotBase n + 32) (15 * wordAt (ssReads s (slotBase n) 32) 3)

/-- Whether slot n is valid. -/
def slotValid (s : State) (n : Nat) : Bool :=
  let h := ssReads s (slotBase n) 32
  wordAt h 0 == 0x4A52 && decide (wordAt h 3 ≤ 512) && wordAt h 4 == 15 && decide (wordAt h 5 ≤ 1) && zeroWords h 6 30 &&
    dwordAt h 30 == crc32Words (h.take 30 ++ slotBody s n)

/-- The sequence number of a slot. -/
def slotSeq (s : State) (n : Nat) : Nat := dwordAt (ssReads s (slotBase n) 32) 1

/-- q is higher than p. -/
def seqHigher (p q : Nat) : Bool := let d := (q + 4294967296 - p) % 4294967296; 1 ≤ d && d ≤ 0x7FFFFFFF

/-- The latest slot. -/
def latestSlot (s : State) : Option Nat :=
  let l := (List.range 4096).filter (slotValid s)
  l.find? fun n => l.all fun m => m == n || seqHigher (slotSeq s m) (slotSeq s n)

/-- A slot's words: header, then records. -/
def slotWords (seq st : Nat) (recs : List Word) : List Word :=
  let h := [wd 0x4A52] ++ wordsOfNat 2 seq ++ [wd (recs.length / 15), 15, wd st] ++ List.replicate 24 0
  h ++ wordsOfNat 2 (crc32Words (h ++ recs)) ++ recs

/-- The image is written to the slot after the latest one, with SEQ one above; slot 0 with SEQ 1 where none is valid (R57) (DESIGN CHOICE, log entry 29). The sets that its regions were formed with are kept beside it (DESIGN CHOICE, log entry 56). -/
def writeSlot (s : State) (image : List JRec) : State :=
  let recs := image.flatMap JRec.words
  let s := { s with boot := { s.boot with oldSets := image.map (·.own) } }
  match latestSlot s with
  | some n => ssWrites s (slotBase ((n + 1) % 4096)) (slotWords ((slotSeq s n + 1) % 4294967296) 0 recs)
  | none => ssWrites s (slotBase 0) (slotWords 1 0 recs)

/-- The kind of a KIND, RKIND or FKIND field. -/
def jkindOf : Nat → JKind
  | 0 => .run | 1 => .chained | 2 => .recover | _ => .lost

/-- A record read back; none where a reserved field is nonzero or a field holds a value that is never written (R191). -/
def JRec.parse (ws : List Word) : Option JRec :=
  let w := wordAt ws
  let kind := bitsN (w 0) 9 8
  let rk := bitsN (w 2) 15 14
  let fk := bitsN (w 2) 13 12
  let rec' := kind == 2 || (kind == 3 && fk == 2)
  if bitsN (w 1) 13 12 = 3 ∨ fk = 3 ∨ (kind ≠ 3 ∧ fk ≠ 0) ∨ 2 ≤ rk ∨ (!rec' ∧ (rk ≠ 0 ∨ w 7 ≠ 0)) ∨ ([3, 4, 5, 6, 8].any fun i => 4096 ≤ w i) ∨ 2048 ≤ w 7 then none else
  match (List.finRange 64).find? (fun p => p.val == w 0 / 1024) with
  | none => none
  | some p =>
    some { rid := 0, port := p, kind := jkindOf kind, mode := bitsN (w 0) 7 4, tb := w 0 % 16, ab := w 1 / 16384, inv := bitsN (w 1) 13 12, doubt := bitN (w 1) 11,
           frame := w 1 % 2048, rkind := jkindOf rk, fkind := jkindOf fk, line := w 2 % 4096, rect := ⟨w 3, w 4, w 5, w 6⟩, rframe := w 7, rline := w 8,
           serial := BitVec.ofNat 64 (natOfWords ((ws.drop 9).take 4)), setCrc := BitVec.ofNat 32 (dwordAt ws 13), own := none }

/-- The records of the latest slot that can be read back, each with the set kept beside it (DESIGN CHOICE, log entry 56). -/
def recsBack (s : State) (recs : List (List Word)) : List JRec :=
  recs.zipIdx.filterMap fun (ws, i) => (JRec.parse ws).map fun j => { j with own := s.boot.oldSets.getD i none }

/-- Records of 15 words, in order. -/
def recordsOf : Nat → List Word → List (List Word)
  | 0, _ => []
  | n + 1, ws => if ws.length < 15 then [] else ws.take 15 :: recordsOf n (ws.drop 15)

/-! Firmware images (R411, Table 15.6) -/

def fwBase (b : Bool) : Nat := if b then 0x1000000 else 0x800000

/-- `n` words of an image. -/
def fwWords (s : State) (b : Bool) (i n : Nat) : List Word := ssReads s (fwBase b + i) n

/-- Load records of a payload: destination address, length, words; none where the framing breaks. -/
def loadRecords : Nat → List Word → Option (List (Nat × List Word))
  | 0, ws => if ws.isEmpty then some [] else none
  | fuel + 1, ws =>
    if ws.isEmpty then some [] else
    let n := dwordAt ws 3
    if ws.length < 5 + n then none else
    match loadRecords fuel (ws.drop (5 + n)) with
    | none => none
    | some l => some ((addrAt ws 0, (ws.drop 5).take n) :: l)

/-- The ring 0 payload and the ring 1 payload of an image. -/
def fwPayloads (s : State) (b : Bool) : List Word × List Word :=
  let h := fwWords s b 0 512
  let r0 := dwordAt h 7
  (fwWords s b 512 r0, fwWords s b (512 + r0) (dwordAt h 9))

/-- The words that R0SIG signs, and those that R1SIG signs. -/
def fwSigned (s : State) (b : Bool) : List Word × List Word :=
  let h := fwWords s b 0 512
  let (p0, p1) := fwPayloads s b
  (h.take 178 ++ p0, h.take 128 ++ (h.drop 256).take 50 ++ p1)

/-- Whether a load record's destination lies in a local-memory window or in HBM. -/
def loadDestOk (e : Nat × List Word) : Bool :=
  decide (e.1 + e.2.length ≤ 0x400000000) || (decide (0x900000000 ≤ e.1) && decide (e.1 + e.2.length ≤ 0x900110000))

/-- SEC_STAT.SVNMIN: the fuses, as raised since (R411). -/
def svnMin (s : State) : Nat := max Config.svnMin.toNat s.sec.svnUp.toNat

/-- The reserved fields of the signature block at word i of an image's header are zero (R410, R411). -/
def sigRsvOk (h : List Word) (i : Nat) : Bool := decide (wordAt h i < 8) && wordAt h (i + 1) == 0

/-- Whether an image passes (R411); `len` is the length that FW_COMMIT names, which must then be the image's. -/
def fwCheck (s : State) (b : Bool) (len : Option Nat := none) : Bool :=
  let h := fwWords s b 0 512
  let n := dwordAt h 2
  let r0 := dwordAt h 7
  let r1 := dwordAt h 9
  wordAt h 0 == 0x4657 && wordAt h 1 == 0x0100 && bitsN (wordAt h 4) 14 6 == 0 && zeroWords h 11 128 && zeroWords h 226 256 && zeroWords h 354 512 &&
    sigRsvOk h 128 && (r1 == 0 || sigRsvOk h 256) &&
    n == 512 + r0 + r1 && decide (n ≤ 0x800000) && decide (svnMin s ≤ wordAt h 4 % 64) && (match len with | some l => l == 2 * n | none => true) &&
    sigPasses s false ((h.drop 128).take 98) (fwSigned s b).1 &&
    (if r1 = 0 then zeroWords h 256 354 else sigPasses s true ((h.drop 256).take 98) (fwSigned s b).2) &&
    (match loadRecords n (fwPayloads s b).1, loadRecords n (fwPayloads s b).2 with
     | some a, some c => (a ++ c).all loadDestOk
     | _, _ => false)

/-! The user layer (R420) -/

/-- A slate entry's 12 words and the data it points to, which stand from word `off` on. Each MODE_LOAD payload stands after its mode number and its length (DESIGN CHOICE) (DESIGN CHOICE, log entry 30). -/
def layerEntry (off : Nat) (l : Layer) : List Word × List Word :=
  let ov := match l.overlay with | some bs => wordsOfBytes bs | none => []
  let md := l.modes.flatMap fun e => wd e.1 :: wordsOfNat 2 e.2.length ++ e.2
  let flags := b2n l.overlay.isSome * 32768 + (l.modes.foldl (fun v e => v ||| 2 ^ e.1) 0)
  ([l.tofs, wd flags] ++ wordsOfNat 2 l.ver.toNat ++ wordsOfNat 2 (if l.overlay.isSome then off else 0) ++
    wordsOfNat 2 (if l.modes.isEmpty then 0 else off + ov.length) ++ wordsOfNat 4 l.serial.toNat, ov ++ md)

/-- The words of a user layer: the values in effect. -/
def layerWords (s : State) (gen : Nat) : List Word :=
  let (es, data) := ((List.range 64).foldl (fun (a : List Word × List Word) p =>
    let (e, d) := layerEntry (800 + a.2.length) (s.boot.layers.getD p Layer.empty)
    (a.1 ++ e, a.2 ++ d)) ([], []))
  let n := 800 + data.length + 2
  let trims := (List.range 8).flatMap (trimWords s)
  let body := [wd 0x554C, wd 0x0100] ++ wordsOfNat 2 gen ++ wordsOfNat 2 n ++ [wd (lightGain s)] ++ List.replicate 9 0 ++ trims ++ es ++ data
  body ++ wordsOfNat 2 (crc32Words body)

/-- A copy of the user layer: kind 0x07 or 0x08; empty where the plan places none. -/
def layerCopy (s : State) (k : Nat) : List Word :=
  match s.place (7 + k) 0 with
  | none => []
  | some pl =>
    let h := (List.range 8).map fun i => memSeen s (pl.base + i)
    let n := dwordAt h 4
    if pl.size < n then [] else (List.range n).map fun i => memSeen s (pl.base + i)

/-- Whether a copy is valid. -/
def layerValid (ws : List Word) : Bool :=
  let n := ws.length
  decide (802 ≤ n) && wordAt ws 0 == 0x554C && wordAt ws 1 == 0x0100 && zeroWords ws 7 16 &&
    (List.range 64).all (fun p => wordAt ws (32 + 12 * p + 1) &&& 0x400F == 0) && dwordAt ws (n - 2) == crc32Words (ws.take (n - 2))

/-- The copy in use. -/
def layerInUse (s : State) : Option Nat :=
  match layerValid (layerCopy s 0), layerValid (layerCopy s 1) with
  | true, true => if dwordAt (layerCopy s 0) 2 < dwordAt (layerCopy s 1) 2 then some 1 else some 0
  | true, false => some 0
  | false, true => some 1
  | false, false => none

/-- MODE_LOAD payloads from word `off` on (DESIGN CHOICE, log entry 30). -/
def layerModes (ws : List Word) : Nat → Nat → List (Nat × List Word)
  | 0, _ => []
  | k + 1, off => let n := dwordAt ws (off + 1); (wordAt ws off % 16, (ws.drop (off + 3)).take n) :: layerModes ws k (off + 3 + n)

/-- The slate entry of port p in a copy; an overlay of the slate's position, half a byte a pixel. -/
def layerOfCopy (s : State) (ws : List Word) (p : Nat) : Layer :=
  let e := ws.drop (32 + 12 * p)
  let flags := wordAt e 1
  let size := match s.geom p with | some g => g.w * g.h / 2 | none => 0
  let n := ((List.range 10).filter fun i => bitN flags (4 + i)).length
  { serial := BitVec.ofNat 64 (natOfWords ((e.drop 8).take 4)),
    overlay := if bitN flags 15 then some ((bytesOfWords ((ws.drop (dwordAt e 4)).take (divCeil size 2))).take size) else none,
    ver := BitVec.ofNat 32 (dwordAt e 2),
    modes := layerModes ws n (dwordAt e 6),
    tofs := wordAt e 0 |> wd }

/-- The user values in effect are written to the other copy, with GEN one higher (R420) (DESIGN CHOICE, log entry 29) (DESIGN CHOICE, log entry 30). -/
def writeLayer (s : State) : State :=
  let gen := match layerInUse s with | some k => (dwordAt (layerCopy s k) 2 + 1) % 4294967296 | none => 1
  let k := match layerInUse s with | some 0 => 1 | _ => 0
  match s.place (7 + k) 0 with
  | none => s
  | some pl =>
    let ws := layerWords s gen
    if pl.size < ws.length then s else
    ssPut { s with boot := { s.boot with calGen := BitVec.ofNat 32 gen } } 5 1 (pl.base - ssAddr 0) ws

end Sys2Proof.Machine
end

