-- ==== Sys2Proof/Machine/PowerOps.lean ====
section
/-! DEFINITION. Power states: orders, wake sources, and the way out of SLEEP and DOZE (R344 to R351). -/
namespace Sys2Proof.Machine
open Sys2Proof

/-- The words of copy A or B of the roof plan in the state store; its LENGTH words. -/
def planCopy (s : State) (b : Bool) : List Word :=
  let base := if b then 0x100000 else 0x80000
  let n := dwordAt (ssReads s base 8) 3
  ssReads s base (if 0x80000 < n then 8 else n)

/-- Whether the vector engine reports idle (VE_STAT.IDLE): no command in a queue, and none of the dispatcher's. -/
def veIdle (s : State) : Bool := (s.ve.queues.all fun q => q.waiting.isEmpty && q.prog.isEmpty) && s.disp.drives.isEmpty

/-! Wake sources (R351) -/

/-- The latest reading of VIN_RAIL allows a start: the VIN-fail threshold + 0.5 V (Table 12.2). -/
def vinWakes (s : State) : Bool := decide (vinThr s + 10 ≤ s.regF Reg.RL_VIN 8 0)

/-- PM_TRIP.TRIES of the roof plan stored, which the AOC has while the main domain is off (R358). -/
def tripTries (s : State) : Nat :=
  let p := planCopy s (dirFlag s 1)
  if hasSection p 7 then bitsN (wordAt (sectionBody p 7) 5) 14 12 else 3

/-- PM_TRIP.HOLDOFF of the roof plan stored (R347). -/
def heldOff (s : State) : Bool := bitN (wordAt (sectionBody (planCopy s (dirFlag s 1)) 7) 5) 15

/-- A wake source in AON_WAKESRC. -/
def recordWake (s : State) (b : Nat) : State := s.regSet Reg.AON_WAKESRC (s.reg Reg.AON_WAKESRC ||| 2 ^ b)

/-- A wake from SLEEP (Table 12.2, R350): the main domain is about to start, cause 0xA. A source that arrives below the VIN limit is kept, with EV-0x6011 once (R351). While the AOC waits to cool it starts nothing, until TRIES hot starts have been refused (R358) (DEDUCED, log entry 39). -/
def wakeSleep (s : State) (b : Option (Fin 8)) : State :=
  if s.boot.inReset ∨ (s.power.coolWait ∧ s.power.hotTries < tripTries s) then s else
  let s := { s with power := { s.power with wakePend := s.power.wakePend ++ b.toList.filter (!s.power.wakePend.contains ·) } }
  if !vinWakes s then
    if s.power.wakeHeld then s else logEv { s with power := { s.power with wakeHeld := true } } 0x6011 .note 8
  else
    let s := alertLow (s.power.wakePend.foldl (fun s b => recordWake s b.val) s)
    { s with power := { s.power with wakeHeld := false, coolWait := false }, boot := { s.boot with cause := 10, inReset := true } }

/-- DOZE to RUN (R349, R356): ports that went OFF train again in their kept sessions, courses leave light-load mode, the time base advances by the AON ticks elapsed, each role's count of silence starts again (R347), and every role takes cause 0x18 (DESIGN CHOICE, log entry 40). -/
def dozeExit (s : State) (b : Fin 8) : State :=
  let s := recordWake s b.val
  let n := (s.aon.tick - s.power.dozeAt).toNat * 100000000 + s.power.timeRem
  let s := { s with time := s.time + BitVec.ofNat 64 (n / 32768), hif := { s.hif with aspm := 0 }
                    power := { s.power with timeRem := n % 32768, st := .run, clkWf := true, clkXspi := true }
                    courses := s.courses.map fun (c : Course) => { c with dozeUp := false } }
  let s := ((List.range 64).filter (s.portEn ·)).foldl (fun s p => if (s.port p).st = .off then toDetect s p else s) s
  let s := alertLow (logEv s 0x6010 .note 8 0xFF [2, 4, b.val])
  let s := { s with ras := { s.ras with hbAt := List.replicate 16 s.time } }
  (List.range 16).foldl (fun s r => raiseInt s r 0x18 0x1000 0) s

/-- A wake source of Table 12.4 in the state the device is in. Host access and slate ports wake from DOZE alone. -/
def wakeEvent (s : State) (b : Fin 8) : State :=
  if !wakeEnabled s b.val then s else
  match s.power.st with
  | .off => s
  | .sleep => if b = 0 ∨ b = 7 then s else wakeSleep s (some b)
  | .doze => dozeExit s b
  | .idle | .run => aonEvent s b.val

/-- Any PCIe request of the host to the endpoint (Table 12.4 bit 0) (DEDUCED, log entry 41). -/
def hostAccess (s : State) : State := wakeEvent s 0

/-! Orders (R346 to R348) -/

/-- The life counters of every slate are written, as at each orderly stop (R312). -/
def writeLives (s : State) : State := (List.range 64).foldl (fun s p => writeLife s p none) s

/-- A life write that a stop cuts short fails (R312). -/
def endLives (s : State) : State := (List.range 64).foldl (fun s p => lifeChunk s p false) s

/-- The UPDATEs taken that no request stands for yet are WAITING (Table 6.1), and end CANCELLED (R348). -/
def cancelTaken (s : State) : State :=
  (List.finRange 16).foldl (fun s r => ((s.ring r.val).taken.filter fun t => t.op == 0x30 && !t.started).foldl (fun s t => postCompletion (s.begin (r, t.seq)) (r, t.seq) .cancelled) s) s

/-- Steps 1 and 2 of R348: the rings are taken from no more, and every request that waits or has an open region is cancelled; wake timer 0 takes the order's value; and the life counters are written. -/
def startSleep (s : State) (o : Order) : State :=
  let s := s.regSet Reg.AON_WT o.wake.toNat 2
  let s := { s with power := { s.power with cur := some o, inTrans := true }, disp := { s.disp with sleeping := true } }
  let s := cancelTaken s
  writeLives <| (s.disp.requests.map (·.id)).foldl (fun s id =>
    match s.request id with
    | none => s
    | some q =>
      if q.waiting then cancelWaiting s id
      else finishRequest ((s.regionsOf id).foldl cancelRegion s) id) s

/-- Whether a state that an order names is in effect: RUN in RUN and IDLE, since IDLE is never ordered (R345). -/
def inEffect (s : State) (t : PowerState) : Bool := s.power.st == t || (t == .run && s.power.st == .idle)

/-- Whether a VIN-fail or a thermal stop overrides every order (R346). -/
def overridden (s : State) : Bool := let p := s.power; p.vinf || p.stopping || p.tripped

/-- Whether a transition runs: one of R346's own, a stop, or a start that is due or runs. -/
def inTransition (s : State) : Bool := s.power.inTrans || s.boot.inReset || s.power.vinStep != 0

/-- Stop and journal for a start of a cause (R401): the stop of a VIN-fail without the hold-up, with a last write of the life counters (R312); orders that wait, run or are kept are replaced. With the main domain off, the start is due at once. The stop of a SLEEP order ends in the start instead; any other stop already running goes on with its own cause. -/
def stopAndJournal (s : State) (cause : Nat) : State :=
  if s.power.vinf then s
  else if !s.boot.mainOn then { s with boot := { s.boot with cause := cause, inReset := true }, power := { s.power with coolWait := false } }
  else if s.power.vinStep ≠ 0 then
    if s.power.sleepOrd then replaceOrders { s with boot := { s.boot with cause := cause }, power := { s.power with sleepOrd := false } } else s
  else if s.boot.inReset then { s with boot := { s.boot with cause := cause } }
  else stopDrive (writeLives (replaceOrders { s with boot := { s.boot with cause := cause } }))

/-- LASTORD for an order of the side lane (R399). -/
def noteSide (s : State) (o : Order) (v : Byte) : State := if o.bySide then setLastOrd s v else s

/-- Whether an order is for the state of another of the same tick, so that both apply (Table 14.5). -/
def sharesTick (k o : Order) : Bool := k.tick == o.tick && k.target == o.target && k.also.isNone && k.src != .auto && o.src != .auto

/-- The two orders of one tick as one: both are answered, and the wake value is the later one's. -/
def Order.join (k o : Order) : Order := { k with also := some o.src, wake := o.wake }

/-- An order is applied (R346): kept during a transition, where it replaces a kept one; OK at once for the state in effect; overridden by a VIN-fail or a thermal stop. One of an earlier tick than the latest applied or kept has been replaced already, and one of the same tick for the same state applies together with it (R398, R399). A DOZE order waits for its condition (R347) (DEDUCED, log entry 39). -/
def applyOrder (s : State) (o : Order) : State :=
  let p := s.power
  if overridden s then answerOrder s o .yielded else
  if o.src ≠ .auto ∧ o.tick.toNat < p.ordTick.toNat then replaceOrder s o else
  let s := if o.src = .auto then s else { s with power := { s.power with ordTick := o.tick } }
  match p.kept.filter (sharesTick · o), p.cur.filter (sharesTick · o) with
  | some k, _ => noteSide { s with power := { s.power with kept := some (k.join o) } } o 2
  | none, some k =>
    let s := { s with power := { s.power with cur := some (k.join o) } }
    if o.target = .sleep then noteSide (s.regSet Reg.AON_WT o.wake.toNat 2) o 1 else noteSide s o 2
  | none, none =>
  if inTransition s then
    let s := yieldReset { s with power := { s.power with kept := some o } }
    let s := match p.kept with | some k => replaceOrder s k | none => s
    raiseClass (noteSide s o 2) 0x18 0x4000
  else
    let s := { s with power := { s.power with cur := none } }
    let s := match p.cur with | some k => replaceOrder s k | none => s
    if inEffect s o.target then answerOrder s o .ok else
    match o.target, s.power.st with
    | .run, .doze => answerOrder (dozeExit s 1) o .ok
    | .run, .sleep => wakeSleep (noteSide s o 1) (if o.bySide then some 1 else none)
    | .doze, _ => noteSide { s with power := { s.power with cur := some o } } o 2
    | .sleep, _ => startSleep (noteSide s o 1) o
    | _, _ => s

/-- A side-lane RESET of KIND 0 or 1 acts: stop and journal, and a start of cause 3 or 4 (R397, Table 15.1). The response follows the slot; with the main domain off there is none to write. -/
def resetNow (s : State) (m : KMsg) : State :=
  let s := { s with boot := { s.boot with safeTry := 0 } }
  if s.boot.mainOn then stopAndJournal { s with side := { s.side with curReset := some m } } (3 + byteAt m.body 0)
  else respond (stopAndJournal s (3 + byteAt m.body 0)) m .ok

/-- A RESET is kept through a transition, where it replaces what was kept (R346). -/
def keepReset (s : State) (m : KMsg) : State :=
  if s.side.keptReset = some m ∨ s.side.curReset = some m then s else
  let k := s.power.kept
  let s := yieldReset { s with power := { s.power with kept := none } }
  let s := match k with | some o => replaceOrder s o | none => s
  raiseClass { s with side := { s.side with keptReset := some m } } 0x18 0x4000

/-- A transition has ended: the order kept through it is applied (R346). -/
def applyKept (s : State) : State :=
  match s.side.keptReset, s.power.kept with
  | some m, _ => resetNow { s with side := { s.side with keptReset := none } } m
  | none, some o => applyOrder { s with power := { s.power with kept := none } } o
  | none, none => s

end Sys2Proof.Machine
end

