-- ==== Sys2Proof/Machine/StartOps.lean ====
section
/-! DEFINITION. Stops, resets of the main domain, the application of a roof plan, and the waymarks of a start (Chapter 15, with R57, R193, R194, R339, R348, R357, R466). -/
namespace Sys2Proof.Machine
open Sys2Proof

/-! Resets of the main domain -/

/-- The storage of HBM, the vector store and the local memories, which a loss of the main supplies empties (R51, R466). -/
def clearRange (s : State) (lo hi : Nat) : State :=
  { s with mem := wmapClear s.mem lo hi, poison := s.poison.filter fun k => k < lo || hi ≤ k }

/-- Registers of the AON block, which a reset of the main domain leaves, the pipes' error counts, kept in AOC SRAM (R435), and RAS_EVSEQ and RAS_EVBASE: SEQ goes on one above the previous entry's, in the mirror too, until WM18 (R395, R429) (DEDUCED, log entry 28). -/
def keepAon (m : WMap) : WMap := m.filter fun e => (0x90000 ≤ e.1 && e.1 < 0xA0000) || (Reg.RAS_PIPEERR ≤ e.1 && e.1 < Reg.RAS_PIPEERR + 34) || (Reg.RAS_EVSEQ ≤ e.1 && e.1 < Reg.RAS_EVSEQ + 4)

/-- Every block but the AON returns to its reset state, and stays in reset until the start begins; the AOC, its SRAM, the AON, the side lane and the fuses keep theirs (R401). The latest reading of VIN_RAIL stays, since it decides wakes (R351). The sum of commands outstanding is recorded (R445); pipe retirements are kept in AOC SRAM (R435). -/
def mainReset (s : State) : State :=
  let z := State.reset
  let cores := z.cores.take 17 ++ s.cores.drop 17
  let vin := s.reg Reg.RL_VIN
  let t := { s with
    regs := ⟨keepAon s.regs.val, keepAon s.regs.eff, keepAon s.regs.cap, keepAon s.regs.held⟩
    cores := cores
    intq := s.intq.filter (·.role == 16)
    ve := { z.ve with active := s.ve.active, retired := s.ve.retired, errs := s.ve.errs }
    sets := z.sets
    disp := z.disp
    ports := z.ports
    courses := z.courses
    loops := z.loops
    memc := z.memc
    power := { s.power with cur := none, inTrans := false, kept := none, throttle := false, stopping := false, tripped := false, hard := false, idleWatch := false, slept := false, sleepOrd := false,
                            clkWf := false, clkXspi := false, clkBurst := true, vinf := false, vinStep := 0, timeRem := 0 }
    hif := { z.hif with lastCpl := s.hif.lastCpl }
    ras := z.ras
    sec := { s.sec with busy := false, pass := false, op := 0 }
    boot := { s.boot with mainOn := false, sumOut := ((s.hif.rings.map Ring.out).foldl (· + ·) 0), plan := [], planSrc := 0, staged := none, swapWait := none, dirWait := none, jrnSlot := none, replayed := [], layers := z.boot.layers, calGen := 0 }
    time := 0
    timeFrac := s.timeFrac }
  t.regSet Reg.RL_VIN vin

/-- PWR_EN goes low: the main supplies fall, the main-domain memories are lost, every main-domain signal ball is high-impedance until 100 µs after MAIN_PG has risen again (R451), and what remains is SLEEP (R347, R452). -/
def powerDown (s : State) : State :=
  let s := clearRange (clearRange (mainReset (recordStale s)) 0 0x804000000) 0x900000000 0x900110000
  let s := { s with boot := { s.boot with pwrEn := false, mainOn := false, mainPg := false, hiZ := 10000 } }
  setPower s .sleep

/-- Whether every course's power-off has ended (Table 11.5 step 6). -/
def railsDown (s : State) : Bool := s.courses.all fun c => c.rail == .off || (c.rail == .fault && !c.pathStop)

/-- Whether this start has taken the journal slot (WM18). -/
def slotTaken (s : State) : Bool := let r := (s.boot.recs.getD 18 WmRec.reset).result; s.boot.outcome == .ready || r == 1 || r == 2 || r == 7

/-- The records of the latest slot where it is open; none where it has been replayed. -/
def openRecords (s : State) : List JRec :=
  match latestSlot s with
  | none => []
  | some n => if wordAt (ssReads s (slotBase n) 32) 5 = 0 then recsBack s (recordsOf (wordAt (ssReads s (slotBase n) 32) 3) (slotBody s n)) else []

/-- The records of the slot that a stop writes: the image, or, where this start has not taken the open slot, that slot's records again, so that they stay open (R57, Table 15.3) (DEDUCED, log entry 38). -/
def slotImage (s : State) (image : List JRec) : List JRec := if slotTaken s then image else openRecords s

/-- What is left of a kept order when the rings are reset: the side lane's. -/
def sideOrder (k : Option Order) : Option Order :=
  match k with
  | some o => (o.srcs.find? fun x => match x with | .side _ => true | _ => false).map fun x => { o with src := x, also := none }
  | none => none

/-- A kept order of the host ends YIELDED before a reset of the main domain takes its ring (R346) (DEDUCED, log entry 39). -/
def hostOrdersEnd (s : State) : State :=
  match s.power.kept with
  | some o => o.srcs.foldl (fun s x => match x with | .host h => postCompletion s h .yielded 0 s.power.st.code | _ => s) s
  | none => s

/-- A stop has ended: its journal slot is durable and every course is OFF. The device sleeps, where an order kept through the transition applies, waits to cool, or is about to start (R346, R348, R357, R401). -/
def stopEnd (s : State) : State :=
  if s.power.vinStep ≠ 5 ∨ s.power.vinf ∨ !railsDown s then s else
  let s := endLives s
  if s.power.tripped then
    let clean := dirFlag s 2
    let s := writeDir s clean (setFlag 3 false)
    let s := powerDown s
    { s with power := { s.power with coolWait := true }, boot := { s.boot with cause := 9, inReset := false } }
  else if s.power.sleepOrd then
    let clean := dirFlag s 2
    let s := writeDir s clean (setFlag 3 true)
    let kept := s.power.kept
    let s := match s.power.cur with | some o => answerOrder s o .ok | none => s
    let s := powerDown s
    applyKept { s with power := { s.power with slept := true, kept := kept }, boot := { s.boot with inReset := false } }
  else
    let kept := sideOrder s.power.kept
    let s := mainReset (hostOrdersEnd s)
    { s with boot := { s.boot with inReset := true }, power := { s.power with kept := kept } }

/-! The roof plan in effect (R414, Table 15.7) -/

/-- Words written to consecutive register words. -/
def putRegs (s : State) (key : Nat) (ws : List Word) : State := (ws.zipIdx).foldl (fun s e => s.regSet (key + e.2) e.1.toNat) s

/-- The body of a section of a plan, or its fields at their reset values where the plan lacks it. -/
def bodyOr (plan : List Word) (t : Nat) : List Word :=
  if hasSection plan t then sectionBody plan t else
  match t with
  | 3 => List.replicate 768 0
  | 6 => 1 :: List.replicate 8 0
  | 11 => List.replicate 1056 0
  | 12 => [0]
  | _ => []

/-- RAILS: the Plan fields of the RL block. -/
def putRails (s : State) (plan : List Word) : State :=
  let b := sectionBody plan 5
  let s := putRegs s Reg.RL_VINCFG (b.take 3)
  (List.range 8).foldl (fun s n => putRegs s (Reg.RL_CO_CFG + 16 * n) ((b.drop (4 + 8 * n)).take 8)) s

/-- BUDGET: the Plan fields of the DSP and PM blocks. -/
def putBudget (s : State) (plan : List Word) : State :=
  let b := sectionBody plan 7
  let s := putRegs s Reg.DSP_DEPTH [b.getD 0 0]
  let s := putRegs s Reg.DSP_COEF [b.getD 1 0, b.getD 2 0]
  let s := putRegs s Reg.PM_THERM [b.getD 3 0, b.getD 4 0, b.getD 5 0]
  (List.range 8).foldl (fun s n => putRegs s (Reg.DSP_CO_CFG + 8 * n) [b.getD (8 + n) 0]) s

/-- RINGS: bindings, completion areas, windows, descriptor parts and ring permissions. -/
def putRings (s : State) (plan : List Word) : State :=
  let b := sectionBody plan 8
  let s := (List.range 16).foldl (fun s i =>
    let s := putRegs s (Reg.VE_QBIND0 + 4 * i) ((b.drop (2 * i)).take 2)
    let s := putRegs s (Reg.VE_QCBASE + 4 * i) ((b.drop (32 + 3 * i)).take 3)
    let s := putRegs s (Reg.VE_WIN0 + 8 * i) ((b.drop (80 + 8 * i)).take 8)
    putRegs s (Reg.HIF_RING_PERM + 32 * i) [b.getD (211 + i) 0]) s
  putRegs s Reg.VE_DPART ((b.drop 208).take 3)

/-- PORTS and SLATE_POLICY: SL_PCFGn and SL_TXCFG. -/
def putPorts (s : State) (plan : List Word) : State :=
  let b := sectionBody plan 2
  let y := sectionBody plan 10
  let s := (List.range 64).foldl (fun s p => s.regSet (portReg Reg.SL_PCFG p) (setBitsN (wordAt b p &&& 0xF000) 11 10 (wordAt y p))) s
  putRegs s Reg.SL_TXCFG [y.getD 64 0]

/-- CHAINS, MICROCODE, INVERSION, RL_LIGHTCFG and MEM_HASH. -/
def putOthers (s : State) (plan : List Word) : State :=
  let s := putRegs s Reg.VE_PATTERN (bodyOr plan 3)
  let s := putRegs s Reg.CCX_MDE ((bodyOr plan 11).take 32)
  let s := putRegs s Reg.CCX_MSTEP ((bodyOr plan 11).drop 32)
  let s := putRegs s Reg.WF_INV (bodyOr plan 12)
  let s := putRegs s Reg.RL_LIGHTCFG [(bodyOr plan 6).getD 0 0]
  putRegs s Reg.MEM_HASH [(sectionBody plan 4).getD 0 0]

/-- RL_COn_LIGHT of every course from the LIGHT section (WM21, Table 15.9). -/
def putLights (s : State) (plan : List Word) : State :=
  lightCheckAll ((List.range 8).foldl (fun s n => putRegs s (Reg.RL_CO_LIGHT + 16 * n) [(bodyOr plan 6).getD (1 + n) 0]) s)

/-- Every bucket full at the depths in effect (R173). -/
def fillBuckets (s : State) : State :=
  let d := bucketDepth s
  { s with disp := { s.disp with ebucket := d, hbucket := d, issued := BitVec.ofNat 48 d, held := 0, spent := 0 }
           courses := s.courses.zipIdx.map fun (c, i) => { c with railb := railDepth s i } }

/-- HBM contents written before WM11 are not preserved across it (R38): a free value for each. -/
def loseHbm (s : State) : State :=
  (s.mem.filter (·.1 < 0x400000000)).foldl (fun s e => let (v, s) := s.free; memSet s e.1 (v.setWidth 16)) s

/-- The load records of the image that runs. -/
def imageRecordsOf (s : State) : List (Nat × List Word) :=
  let (p0, p1) := fwPayloads s s.boot.fwB
  (loadRecords p0.length p0).getD [] ++ (loadRecords p1.length p1).getD []

/-- Firmware records whose destination lies in a local-memory window. -/
def localRecords (s : State) : List (Nat × List Word) := (imageRecordsOf s).filter fun e => 0x900000000 ≤ e.1

/-- Firmware records whose destination lies in HBM. -/
def hbmRecords (s : State) : List (Nat × List Word) := (imageRecordsOf s).filter fun e => e.1 < 0x400000000

/-- The digests of the words that R0SIG and R1SIG sign in an image (R411). -/
def signedDigest (s : State) (b : Bool) : List Byte := let g := fwSigned s b; sha384 (bytesOfWords g.1) ++ sha384 (bytesOfWords g.2)

/-- After WM11 the firmware of role 0 copies the image's HBM records, once the digest of its signed words is the one that WM05 computed. A mismatch logs EV-0xA001, marks the image failed in the memory of WM05, FWNEXT naming the other one, and is a start of cause 5 (R411) (DEDUCED, log entry 43). -/
def copyHbmRecords (s : State) : State :=
  if signedDigest s s.boot.fwB = s.boot.fwDigest then (hbmRecords s).foldl (fun s e => memWrites s e.1 e.2) s
  else
    let s := logEv s 0xA001 .action 0
    stopAndJournal (writeDir s false fun ws => failMem 5 (setFlag 0 (!s.boot.fwB) ws)) 5

/-- WM11: every Plan field from its section (R414), and then the firmware's records in HBM (R411). -/
def applyPlan (s : State) : State :=
  let p := s.boot.plan
  let s := loseHbm s
  copyHbmRecords (fillBuckets (putOthers (putPorts (putRings (putBudget (putRails s p) p) p) p) p))

/-- A plan's PLANVER. -/
def planVer (ws : List Word) : Nat := dwordAt ws 5

/-! The boot directory of a start -/

/-- A record of the waymark log. -/
def State.wmRec (s : State) (n : Nat) : WmRec := s.boot.recs.getD n WmRec.reset
/-- A record changes; the words it is written to can be read again (R50). -/
def State.updRec (s : State) (n : Nat) (f : WmRec → WmRec) : State := clearPoison { s with boot := { s.boot with recs := s.boot.recs.modify n f } } (wmLogAt (1 + n)) 8

/-- Whether a waymark has ended. -/
def wmEnded (s : State) (n : Nat) : Bool := let r := (s.wmRec n).result; r != 0 && r != 5
/-- Whether a waymark has passed, on any method. -/
def wmPassed (s : State) (n : Nat) : Bool := let r := (s.wmRec n).result; r == 1 || r == 2 || r == 7

/-- The directory's fields as this start leaves them (Table 15.5): images and versions that passed, the failure memory, the policy, training and repair results. -/
def startDir (s : State) (ws : List Word) : List Word :=
  let ws := if wmPassed s 5 then putWords (setFlag 0 s.boot.fwB ws) 5 2 (s.reg Reg.SYS_FWVER 2) else ws
  let ws := if wmPassed s 10 then putWords (if s.boot.planSrc < 2 then setFlag 1 (s.boot.planSrc == 1) ws else ws) 7 2 (s.reg Reg.SYS_PLANVER 2) else ws
  let ws := putWords ws 9 6 ((List.range 23).foldl (fun v n => v + ((s.boot.meth.getD n 0) % 16 <<< (4 * n))) 0)
  let ws := if wmPassed s 11 then ws.take 16 ++ (if hasSection s.boot.plan 9 then sectionBody s.boot.plan 9 else List.replicate 23 0) ++ ws.drop 39 else ws
  let ws := if wmPassed s 8 then setFlag 4 true (ws.take 64 ++ (List.range 960).map Config.trainWord ++ ws.drop 1024) else ws
  if wmPassed s 9 then ws.take 1024 ++ (List.range 16).map (fun i => wd (match s.memc.spares.getD i none with | some b => 32768 + b | none => 0)) ++
    [wd (match s.memc.retiredPc with | some p => 32768 + p.val | none => 0)] ++ ws.drop 1041 else ws

/-! SAFE states (R406) -/

def Outcome.code : Outcome → Nat
  | .running => 0 | .ready => 1 | .safeAon => 2 | .safeFw => 3 | .safePlan => 4 | .safeDrive => 5 | .hot => 6

/-- The main domain goes off, and an order kept through the start applies in SLEEP (R346). -/
def powerDownKept (s : State) : State :=
  let kept := s.power.kept
  let s := powerDown s
  applyKept { s with power := { s.power with kept := kept } }

/-- The start has come to its end: header duration, mark cleared but for a start abandoned hot (R408), and an order kept during it may apply. -/
def endStart (s : State) (o : Outcome) : State :=
  { s with boot := { s.boot with outcome := o, marked := s.boot.marked && o == .hot, durTk := s.aon.tick - s.boot.startTk }, power := { s.power with inTrans := false } }

/-- Entry to a SAFE state from waymark n: EV-0x9004, every front light low, the directory written; SAFE-AON switches the main domain off, SAFE-DRIVE powers every course off and drives no slate, and where WM18 has taken the journal slot the regions that were open are in an open slot again, so that the slot stays OPEN (DEDUCED, log entry 43); SAFE-PLAN serves ring 0 with the permission PLAN alone (Table 15.3). -/
def enterSafe (s : State) (n : Nat) (o : Outcome) : State :=
  let s := endStart s o
  let s := { s with courses := s.courses.map fun (c : Course) => { c with flEn := false, flPwm := false } }
  let s := writeDir s false (startDir s)
  let s := logEv s 0x9004 .stop 0 0xFF [n, o.code]
  match o with
  | .safeAon => powerDownKept s
  | .safePlan => applyKept (s.regSet Reg.HIF_RING_PERM 4)
  | .safeDrive =>
    let s := (List.range 8).foldl (fun s co =>
      let s := s.updCourse co fun c => { c with onWait := false, onAfter := false, retryWait := false }
      let s := if s.disp.regions.any (fun r => s.courseOf r.port.val == co && r.live && !r.lost) then loseCourse s co else s
      let st := (s.course co).rail
      if st = .up ∨ st = .rising then startPowerOff s co else s) s
    let s := if slotTaken s then writeSlot s (journalImage s) else s
    applyKept { s with ports := s.ports.map fun (t : Port) => { t with drivable := false }, disp := { s.disp with noSpans := true } }
  | _ => applyKept s

/-! Waymarks (R403 to R405, Table 15.2) -/

inductive WmKind where
  | e | a | k
  deriving DecidableEq, Repr

def wmKind : Nat → WmKind
  | 5 | 7 | 8 | 9 | 10 | 16 => .a
  | 12 | 13 | 14 | 15 | 17 | 19 | 21 => .k
  | _ => .e

/-- The SAFE state of a row of Table 15.2. -/
def wmSafe : Nat → Outcome
  | 5 => .safeFw | 10 | 11 => .safePlan | 18 | 20 => .safeDrive | _ => .safeAon

/-- A list of methods begun at a given one. -/
def rotateTo (l : List Nat) (m : Nat) : List Nat := if l.contains m then l.dropWhile (· != m) ++ l.takeWhile (· != m) else l

/-- The methods of a waymark for this start, in the order tried: the one that passed at the latest start first (R405); the staged plan first after a PLAN_SWAP from SAFE-PLAN (Table 15.3). WM08 has its stored results on the warm path alone (DEDUCED, log entry 42). -/
def wmMethods (s : State) (n : Nat) : List Nat :=
  let m := (dirMem s n).1
  match n with
  | 0 | 1 | 3 | 4 | 7 | 9 | 16 => rotateTo [0, 1] m
  | 5 | 17 => [0, 1]
  | 10 => if s.boot.staged.isSome then [2, 0, 1] else [0, 1]
  | 8 => if s.boot.trainWarm then rotateTo [0, 1, 2] m else rotateTo [1, 2] m
  | _ => [0]

/-- Retries of an E waymark: WAYMARK_POLICY, from the directory up to WM10 and from the plan in effect afterwards (DEDUCED, log entry 42). -/
def wmRetries (s : State) (n : Nat) : Nat :=
  if n ≤ 10 then wordAt (dirWords s) (16 + n) / 4096 else wordAt (sectionBody s.boot.plan 9) n / 4096

/-- The method a waymark is running. -/
def wmMethod (s : State) (n : Nat) : Nat := (wmMethods s n).getD (s.wmRec n).path 0

/-- The records of a port whose link is ACTIVE are discarded where its slate is not the one they name; a slate whose record failed its checks counts as one whose set differs (R159). -/
def discardOthers (s : State) (p : Nat) : State :=
  if (s.port p).st ≠ .active ∨ ((s.port p).slate.isNone ∧ s.regF (portReg Reg.SL_REC p) 3 0 = 0) then s else
  ((s.regionsOn p).filter fun r => r.lost && !sameSlate s r).foldl discardRegion s

/-- What beginning a waymark does: the mark (WM01), PWR_EN (WM02), ports to DETECT (WM14), courses powered on (WM19), replay and CLEAR runs (WM20), the LIGHT section (WM21) (DEDUCED, log entry 42). -/
def wmBegin (s : State) (n : Nat) : State :=
  let s := s.updRec n fun r => { r with result := 5, attempts := 1, path := 0, start := s.aon.tick.setWidth 32 }
  let s := { s with boot := { s.boot with wm := n, tries := s.boot.tries.set n 1, trainWarm := if n = 8 then s.boot.warm else s.boot.trainWarm } }
  match n with
  | 1 => { s with boot := { s.boot with marked := true } }
  | 2 => { s with boot := { s.boot with pwrEn := true } }
  | 14 =>
    let s := { s with boot := { s.boot with portWm := (List.range 64).map (fun p => if s.portEn p then 14 else 18), portPath := List.replicate 64 0 } }
    ((List.range 64).filter (s.portEn ·)).foldl (fun s p => if (s.port p).st = .off then setPortSt s p .detect else s) s
  | 19 => ((List.range 8).filter (courseSet s ·)).foldl requestOn s
  | 20 => (List.range 64).foldl (fun s p =>
      if (s.port p).st ≠ .active then s else
      let s := resolveLost (discardOthers s p) p false
      if ((s.port p).slate.map (·.unknown)) = some true ∧ setValid s p then clearUnknown s p else s) s
  | 21 => putLights s s.boot.plan
  | _ => s

/-- WM12 or WM13 that failed at two consecutive starts is skipped, as EV-0x9003 tells (R404, R405); every other waymark begins. -/
def wmGo (s : State) (n : Nat) : State :=
  if (n = 12 ∨ n = 13) ∧ 2 ≤ (dirMem s n).2 then logEv (s.updRec n fun r => { r with result := 6, start := s.aon.tick.setWidth 32 }) 0x9003 .degraded 0 else wmBegin s n

/-- WM18 starts when WM13, WM16 and WM17 have ended (R403). -/
def wmJoin (s : State) : State :=
  if wmEnded s 13 ∧ wmEnded s 16 ∧ wmEnded s 17 ∧ (s.wmRec 18).result = 0 then wmBegin s 18 else s

/-- The device runs, with the clocks of RUN (Table 12.6). -/
def startRun (s : State) (wake : Nat) : State := setPower { s with power := { s.power with clkWf := true, clkXspi := true } } .run wake

/-- WM00 and WM01 have passed after VSTBY became valid: OFF to SLEEP, and on into the cold path, unless PM_TRIP.HOLDOFF of the stored plan has the device wait in SLEEP for a wake source (R347), with the values of that entry recorded (R394). -/
def leaveOff (s : State) : State :=
  let s := setPower s .sleep
  if heldOff s then applyKept <| recordStale { s with power := { s.power with inTrans := false } } else wmBegin (startRun s 0xFF) 2

/-- The waymarks that follow one that has ended, unless a stop runs (R403); nothing waits for WM12. In SAFE-PLAN, WM12 and WM13 alone run. -/
def wmNext (s : State) (n : Nat) : State :=
  if s.boot.outcome ≠ .running ∨ s.power.vinStep ≠ 0 then s else
  match n with
  | 11 => wmGo (wmGo (wmBegin s 14) 12) 13
  | 12 => s
  | 1 => if s.boot.cause = 1 then leaveOff s else wmBegin s 2
  | 13 | 14 | 15 | 16 | 17 => wmJoin s
  | 22 => s
  | _ => wmBegin s (n + 1)

/-! What a waymark that passes does -/

/-- Whether a state-store device meets every requirement of Table 2.6 (R52). -/
def deviceOk (d : Config.SsDevice) : Bool :=
  d.octalDdr && d.dqs && d.sfdp && d.clock50 && d.clock200 && d.io18 && d.inPlace && d.anyLength && d.durable1us &&
    decide (10 ^ 14 ≤ d.endurance) && decide (10 ≤ d.years70C) && [64, 128, 256, 512].contains d.megabytes

/-- The devices that the board fits on a channel. -/
def ssDevices (ch : Fin 4) : List Config.SsDevice := ([0, 1] : List (Fin 2)).filterMap (Config.ssDevice ch)

/-- MEM_SS_CFG as discovery finds the populated channels: a channel with a device that fails is faulty and unused (R52), and a population other than those of R53 gives no usable channel (DEDUCED, log entry 43). -/
def ssConfig (fit : Fin 4 → List Config.SsDevice) : Nat :=
  let chs : List (Fin 4) := [0, 1, 2, 3]
  let faulty := chs.foldl (fun v c => if (fit c).all deviceOk then v else v + 2 ^ c.val) 0
  let used := chs.filter fun c => !(fit c).isEmpty && (fit c).all deviceOk
  let devs := (fit 0).length
  let mb := match (fit 0).head? with | some d => d.megabytes | none => 0
  let same := used.all fun c => (fit c).length == devs && (fit c).all (·.megabytes == mb)
  let cap := match used.length * devs * mb with | 256 => some 0 | 512 => some 1 | 1024 => some 2 | 2048 => some 3 | _ => none
  let code := if used = chs then 3 else if used = [0, 1] then 2 else if used = [0] then 1 else 0
  match cap with
  | some k => if same && code != 0 then code * 4096 + (devs - 1) * 2048 + k * 256 + faulty else faulty
  | none => faulty

/-- WM03: the state store as discovered (R52, R53). -/
def discover (s : State) : State :=
  let w := ssConfig ssDevices
  { s.regSet Reg.MEM_SS_CFG w with memc := { s.memc with ssReady := w / 4096 != 0, ssLost := false } }

/-- WM05: an image that passed runs (R411). -/
def takeImage (s : State) (b : Bool) : State :=
  let h := fwWords s b 0 512
  let svn := wordAt h 4 % 64
  let s := (s.regSet Reg.SYS_FWVER (dwordAt h 5) 2)
  let s := { s with boot := { s.boot with fwB := b, fwSvn := BitVec.ofNat 6 svn, fwDigest := signedDigest s b } }
  if bitN (wordAt h 4) 15 ∧ svnMin s < svn then logEv { s with sec := { s.sec with svnUp := BitVec.ofNat 6 svn } } 0xA003 .note 12 else s

/-- WM06: roles to cores (R198, R438): a core that fails its self-test is retired and the spare takes its role; where role 0 is left over, the lowest core takes it, and the highest core the role that core had; local memories are cleared, firmware records written, and the cores released (R411, R466). -/
def giveRoles (bad : List Nat) : List (Nat × Fin 16) :=
  let good := (List.range 17).filter fun c => !bad.contains c
  let own := (List.finRange 16).filter fun r => good.contains r.val
  let need := (List.finRange 16).filter fun r => !good.contains r.val
  let spare := good.filter (· == 16)
  let first := own.map (fun r => (r.val, r)) ++ (need.zip spare).map fun e => (e.2, e.1)
  if first.any (·.2 == 0) then first
  else match own.head?, own.getLast? with
    | some c, some h => (c.val, 0) :: (if h = c then [] else [(h.val, c)]) ++ first.filter fun e => e.1 != c.val && e.1 != h.val
    | _, _ => []

/-- WM06 passes with the cores `bad` failing. -/
def startCores (s : State) (bad : List Nat) : State :=
  let s := clearRange s 0x900000000 0x900110000
  let s := { s with cores := s.cores.zipIdx.map fun (k, i) => if i < 17 ∧ bad.contains i then { k with retired := true, role := none } else k }
  let l := giveRoles bad
  let s := l.foldl (fun s e => s.updCore e.1 fun k => { k with role := some e.2 }) s
  let s := (localRecords s).foldl (fun s e => memWrites s e.1 e.2) s
  let s := l.foldl (fun s e => releaseCore s e.1 e.2) s
  ((List.range 16).filter fun r => !l.any (·.2.val == r)).foldl (fun s r => logEv s 0x3031 .degraded 10 r) s

/-- The stored repair map of the directory: spares' banks, and the retired pseudo-channel. -/
def dirRepair (s : State) : List (Option Nat) × Option (Fin 64) :=
  let ws := dirWords s
  ((List.range 16).map fun i => let w := wordAt ws (1024 + i); if bitN w 15 then some (w % 1024) else none,
   let w := wordAt ws 1040; if bitN w 15 then (List.finRange 64).find? (·.val == w % 64) else none)

/-- A failing bank takes the lowest spare left; with none it stays in service (R49). -/
def spareBank (s : State) (b : Nat) : State :=
  if s.memc.spares.contains (some b) then s else
  match s.memc.spares.findIdx? (·.isNone) with
  | some i => logEv { s with memc := { s.memc with spares := s.memc.spares.set i (some b) } } 0x1010 .masked 5
  | none => logEv s 0x1011 .degraded 5

/-- WM07 passes with the banks `bad` failing the test: repaired, cleared and ready (R49, R466). -/
def startVs (s : State) (bad : List Nat) : State :=
  let stored := s.boot.warm || wmMethod s 7 == 1
  let s := if stored then { s with memc := { s.memc with spares := (dirRepair s).1 } } else s
  let s := (bad.filter (· < 1024)).foldl spareBank s
  let s := clearRange s 0x800000000 0x804000000
  { s with memc := { s.memc with vsReady := true } }

/-- A pseudo-channel is retired before HBM holds anything: a second one stays in service (R42). -/
def retirePcAtStart (s : State) (p : Nat) : State :=
  match s.memc.retiredPc with
  | some q => if q.val = p then s else logEv s 0x1021 .action 5
  | none =>
    match (List.finRange 64).find? (·.val == p) with
    | some f => logEv { s with memc := { s.memc with retiredPc := some f } } 0x1020 .degraded 5
    | none => s

/-- The retirement that the directory names stands again; where WM08 has retired another channel, that one stays in service as a second (R42). -/
def storedRetirement (s : State) : State :=
  match s.memc.retiredPc, (dirRepair s).2 with
  | none, r => { s with memc := { s.memc with retiredPc := r } }
  | some _, some r => retirePcAtStart s r.val
  | some _, none => s

/-- WM09 passes with the pseudo-channels `bad` failing: retired, cleared and ready (R42, R466). -/
def startHbm (s : State) (bad : List Nat) : State :=
  let stored := s.boot.warm || wmMethod s 9 == 1
  let s := if stored then storedRetirement s else s
  let s := bad.foldl retirePcAtStart s
  let s := clearRange s 0 0x400000000
  { s with memc := { s.memc with hbmReady := true } }

/-- The plan that the running method of WM10 names: 0 PLANNEXT's copy, 1 the other, 2 the staged plan; and its SOURCE, which a swap that persists has made that of its copy. -/
def planOf (s : State) : List Word × Nat :=
  let next := dirFlag s 1
  match wmMethod s 10 with
  | 2 => (s.boot.staged.getD [], s.boot.planSrc)
  | 1 => (planCopy s !next, b2n !next)
  | _ => (planCopy s next, b2n next)

/-- The user values of a copy that no port owns take effect: trims and gain; and every port's entry is read (R420, R421). -/
def takeLayerHead (s : State) (k : Nat) : State :=
  let ws := layerCopy s k
  let s := s.regSet Reg.SYS_LGAIN (wordAt ws 6)
  let s := (List.range 8).foldl (fun s co => applyTrims ((s.regSet (Reg.RL_CO_UTRIM1 + 16 * co) (wordAt ws (16 + 2 * co))).regSet (Reg.RL_CO_UTRIM2 + 16 * co) (wordAt ws (17 + 2 * co))) co) s
  { s with boot := { s.boot with layers := (List.range 64).map (layerOfCopy s ws), calGen := BitVec.ofNat 32 (dwordAt ws 2) } }

/-- The entry of a port takes effect; for a port without a slate it waits for the slate (R420, R421). -/
def takeLayerPort (s : State) (p : Nat) : State :=
  let l := s.boot.layers.getD p Layer.empty
  match (s.port p).slate with
  | none => s
  | some sl =>
    let s := takeOffset s p sl.serial
    if l.serial = sl.serial then
      let s := s.updSlate p fun x => { x with overlay := l.overlay.getD [] }
      match s.setOf p with
      | some st => let (s, r) := takeModes s p st.words l.modes; makeResident s p r
      | none => s
    else if l.serial = 0 then s
    else logEv s 0x9011 .note 0 p

/-- The user values of a copy take effect for the ports named (R420, R421). -/
def takeLayer (s : State) (k : Nat) (ps : List Nat) : State := ps.foldl takeLayerPort (takeLayerHead s k)

/-- The copy that a method of WM17 applies: the newer valid copy, and the other one, if it is valid too (Table 15.2). -/
def layerFor (s : State) (m : Nat) : Option Nat :=
  match layerInUse s with
  | some k => if m = 0 then some k else if layerValid (layerCopy s (1 - k)) then some (1 - k) else none
  | none => none

/-- WM17 for the ports named, by its running method; with no copy, factory values stand (R421). -/
def startLayer (s : State) (ps : List Nat) : State := match layerFor s (wmMethod s 17) with | some k => takeLayer s k ps | none => s

/-! WM18: planes, event log and journal (R194, R421, R430) -/

/-- A persistent plane is copied into its state plane; pixels at rest take the trim class their layers give now. -/
def restorePlane (s : State) (p : Nat) (w h : Nat) : State :=
  match s.place 0x05 p with
  | none => s
  | some pl => (rectPixels ⟨0, 0, w, h⟩).foldl (fun s q => s.setPixel p q.1 q.2 (memGet s (pl.base + q.2 * pl.pitch + q.1)).toNat) s

/-- A pending plane is cleared. -/
def clearPending (s : State) (p : Nat) (w h : Nat) : State :=
  (rectPixels ⟨0, 0, w, h⟩).foldl (fun s q => match s.pixelIn 0x02 p q.1 q.2 with | some a => memSet s a 0 | none => s) s

/-- The planes of a port: restored where the slate is known, else filled (R421); every slate is unknown while the loss of a channel is on record (R441). A port without a slate has its plane restored, for what is attached later (DEDUCED, log entry 43). -/
def restorePort (s : State) (p : Nat) : State :=
  match (s.port p).slate with
  | none =>
    match s.geom p with
    | some g => if s.portEn p ∧ ¬ s.aon.ssLoss then clearPending (restorePlane s p g.w g.h) p g.w g.h else s
    | none => s
  | some sl =>
    let unknown := sl.unknown || s.aon.ssLoss
    let s := s.updSlate p fun x => { x with unknown := unknown }
    if unknown then fillPlane s p else clearPending (restorePlane s p sl.width sl.height) p sl.width sl.height

/-- A lost region that stands for a journal record, until its slate is there (R190, R194). -/
def recordRegion (s : State) (j : JRec) : State :=
  let (id, s) := s.newId
  let run (k : JKind) : RunKind := match k with | .chained => .chained | .recover => .recover | _ => .run
  let kind := if j.kind = .lost then run j.fkind else run j.kind
  let line (v : Nat) : Option Nat := if v = 0xFFF then none else some v
  let x : Region :=
    { id := id, req := 0, port := j.port, rect := j.rect, mode := j.mode, cls := 2, deadline := none, order := id, st := if kind = .recover then .recovering else .running,
      reason := .milestone, kind := kind, rkind := run j.rkind, nkind := if kind = .recover then .run else kind, frame := j.frame, line := line j.line,
      rframe := j.rframe, rline := line j.rline, spanEnd := 0, cur := false, nxt := false, tb := j.tb, ab := j.ab, inv := j.inv, tgtDur := true, splDur := true,
      ef := 0, hf := 0, rf := 0, heldE := 0, heldH := 0, heldR := 0, holdMark := false, cancelMk := false, lost := true, doubt := j.doubt, starved := false,
      wear := kind != .recover && j.frame != 0, parkN := none, waitsFor := [], serial := j.serial, setCrc := j.setCrc, spanB := 0, own := j.own, orig := none, under := none }
  s.setRegions (s.disp.regions ++ [x])

/-- The order of replay: PORT, then Y0, then X0 (R194). -/
def recordBefore (a b : JRec) : Bool :=
  if a.port ≠ b.port then a.port.val < b.port.val else if a.rect.y ≠ b.rect.y then a.rect.y < b.rect.y else a.rect.x ≤ b.rect.x

/-- The journal slot is taken: its records become lost regions, its STATE becomes REPLAYED, and invalid records are discarded with EV-0xB041 (R57, R191, R194). -/
def takeJournal (s : State) : State :=
  match latestSlot s with
  | none => s
  | some n =>
    let h := ssReads s (slotBase n) 32
    if wordAt h 5 ≠ 0 then s else
    let recs := recordsOf (wordAt h 3) (slotBody s n)
    let good := sortBy recordBefore (recsBack s recs)
    let badWs := recs.filter fun r => (JRec.parse r).isNone
    let s := good.foldl recordRegion s
    let s := badWs.foldl (fun s r => logEv s 0xB041 .action 3 (wordAt r 0 / 1024)) s
    let s := { s with boot := { s.boot with replayed := good } }
    ssWrites s (slotBase n) (slotWords (slotSeq s n) 1 (recs.flatMap id))

/-- OPEN clears on every pixel of a port's plane that no record covers; its trim class is then the layers' (R421). -/
def restPixels (s : State) (p : Nat) : State :=
  match s.geom p with
  | none => s
  | some g =>
    let rs := (s.regionsOn p).map (·.rect)
    (rectPixels ⟨0, 0, g.w, g.h⟩).foldl (fun s q =>
      if rs.any (·.has q) then s else s.setPixel p q.1 q.2 (withTrim s p q.1 q.2 (setBitsN (s.pixel p q.1 q.2) 14 14 0))) s

/-- The words of log entry number `i` of the ring, and whether they are valid (R428). -/
def logEntry (s : State) (i : Nat) : List Word := ssReads s (0x1000 + 16 * (i % 4096)) 16
def entryValid (ws : List Word) : Bool := wordAt ws 0 != 0 && bitsN (wordAt ws 1) 12 8 == 0 && wordAt ws 15 == crc16Words (ws.take 15)

/-- The valid entries of the ring, in order of SEQ. -/
def validEntries (s : State) : List (List Word) := sortBy (fun a b => decide (dwordAt a 2 ≤ dwordAt b 2)) (((List.range 4096).map (logEntry s)).filter entryValid)

/-- A queued entry with another SEQ and its CRC again (DEDUCED, log entry 43). -/
def withSeq (ws : List Word) (q : Nat) : List Word := let b := putWords (ws.take 15) 2 2 q; b ++ [wd (crc16Words b)]

/-- WM18 scans the log: RAS_EVSEQ resumes one above the highest valid SEQ, entries queued so far take the SEQ numbers that follow, in the mirror too, which gives up entries that were lost with an earlier queue and never reached the log (R395), and RAS_EVBASE is the SEQ of the latest clear (R430). -/
def scanLog (s : State) : State :=
  let l := validEntries s
  let base := match l.getLast? with | some e => dwordAt e 2 + 1 | none => 0
  let clear := match (l.filter fun e => wordAt e 0 == 0xF014).getLast? with | some e => dwordAt e 2 | none => 0
  let q := s.ras.evq.zipIdx.map fun (e, i) => { e with words := withSeq e.words ((base + i) % 4294967296) }
  let new (w : List Word) : Option (List Word) := match s.ras.evq.zipIdx.find? (·.1.words == w) with
    | some e => some (withSeq w ((base + e.2) % 4294967296))
    | none => if l.contains w then some w else none
  ({ s with ras := { s.ras with evq := q }, side := { s.side with mirror := s.side.mirror.filterMap new } }.regSet Reg.RAS_EVSEQ ((base + q.length) % 4294967296) 2).regSet Reg.RAS_EVBASE clear 2

/-- WM18 passes. -/
def startReplayJournal (s : State) : State :=
  let s := (List.range 64).foldl restorePort s
  let s := (List.range 64).foldl discardOthers (takeJournal (scanLog s))
  let s := (List.range 64).foldl restPixels s
  { s with aon := { s.aon with ssLoss := false } }

/-- WM22: READY; the directory is written with CLEAN where every waymark of the start ended well, WM00 aside where VSTBY has stayed valid, and recorded doorbells are served from here on (R403, R408). -/
def reachReady (s : State) : State :=
  let s := logEv (endStart s .ready) 0x9005 .note 0
  let clean := (List.range 22).all fun n => wmPassed s n || (n == 0 && (s.wmRec 0).result == 0)
  let s := writeDir s clean fun ws => setFlag 3 false (startDir s ws)
  applyKept { s with boot := { s.boot with safeTry := 0 } }

/-- The effect of a waymark that passes, with the units that failed in it. WM20 completes for the courses that have a port then; one that has none does not count as known until a start in which it has (R336) (DESIGN CHOICE, log entry 57). -/
def wmEffect (s : State) (n : Nat) (failed : List Nat) : State :=
  match n with
  | 0 => if wmMethod s 0 = 1 then { s with aon := { s.aon with xtalF := true } } else s
  | 3 => discover s
  | 4 => { s with power := { s.power with hotTries := 0 } }
  | 5 => takeImage s (xor (dirFlag s 0) (wmMethod s 5 == 1))
  | 6 => startCores s failed
  | 7 => startVs s failed
  | 8 => failed.foldl retirePcAtStart s
  | 9 => startHbm s failed
  | 10 =>
    let (ws, src) := planOf s
    { (s.regSet Reg.SYS_PLANVER (planVer ws) 2) with boot := { s.boot with plan := ws, planSrc := src, staged := none } }
  | 11 => applyPlan s
  | 12 => (failed.filter (· < 34)).foldl retirePipe s
  | 17 => startLayer s ((List.range 64).filter (!s.portEn ·))
  | 18 => startReplayJournal s
  | 20 => { s with courses := s.courses.zipIdx.map fun (c, i) => { c with cleared := c.cleared || !(s.portsOf i).isEmpty } }
  | 22 => reachReady s
  | _ => s

/-- What the model itself looks at before a method passes: the supplies, 100 µs after MAIN_PG (WM02, R451), the image (WM05), the cores (WM06), the plan (WM10), the link (WM13), the runs in progress (WM20). -/
inductive WmLook where
  | pass | fail (detail : Nat) | wait
  deriving DecidableEq, Repr

/-- The look of R403 to R422 at a waymark that is said to pass. -/
def wmLook (s : State) (n : Nat) (failed : List Nat) : WmLook :=
  match n with
  | 2 => if s.boot.mainPg ∧ s.boot.hiZ = 0 then .pass else .wait
  | 5 => if fwCheck s (xor (dirFlag s 0) (wmMethod s 5 == 1)) && s.regF Reg.MEM_SS_CFG 13 12 != 0 then .pass else .fail 0
  | 6 => if (List.range 17).all failed.contains then .fail 0 else .pass
  | 10 => let c := (planCheck s (planOf s).1).1; if c = 0 then .pass else .fail c
  | 13 => if s.hif.linkUp then .pass else .wait
  | 17 => if (layerFor s (wmMethod s 17)).isSome || (wmMethod s 17 == 0 && s.place 7 0 == none) then .pass else .fail 0
  | 20 => if s.disp.regions.any (fun r => !r.lost && (r.st == .recovering || (r.req == 0 && r.mode == 0 && r.st != .done && (s.port r.port.val).slate.any (·.unknown)))) then .wait else .pass
  | _ => .pass

/-- The event of a failed image, EV-0xA001 (R411). -/
def wmFailEvent (s : State) (n : Nat) : State := if n = 5 then logEv s 0xA001 .action 0 else s

/-- The failure memory of a waymark: the method of the pass, or one more consecutive failure. -/
def noteMem (s : State) (n : Nat) (v : Nat) : State := { s with boot := { s.boot with meth := s.boot.meth.set n v } }

/-- The ticks a waymark has taken. -/
def wmClose (s : State) (n result units : Nat) : State :=
  s.updRec n fun r => { r with result := result, units := BitVec.ofNat 8 units, dur := s.aon.tick.setWidth 32 - r.start }

/-- The ports that run a waymark from WM14 to WM17 now (R403). -/
def portsAt (s : State) (n : Nat) : List Nat := (List.range 64).filter fun p => s.boot.portWm.getD p 18 == n

/-- Whether a waymark runs for each port on its own (R403). -/
def perPort (n : Nat) : Bool := 14 ≤ n && n ≤ 17

/-- Units skipped in a waymark are counted, each with EV-0x9003 (R404). -/
def skipUnits (s : State) (n : Nat) (failed : List Nat) : State :=
  failed.foldl (fun s u => logEv s 0x9003 .degraded 0 u) (s.updRec n fun r => { r with units := r.units + BitVec.ofNat 8 failed.length })

/-- A port that WM16 fails is not driven (Table 15.2). -/
def undriven (s : State) (ps : List Nat) : State := ps.foldl (fun s p => s.updPort p fun t => { t with drivable := false }) s

/-- The configured courses. -/
def coursesSet (s : State) : List Nat := (List.range 8).filter (courseSet s ·)

/-- The units that a waymark records as skipped: those named, and at WM14 every port of those named that is not ACTIVE (R301), at WM19 every configured course that is not UP (R325). -/
def wmSkipped (s : State) (n : Nat) (failed ps : List Nat) : List Nat :=
  match n with
  | 14 => ps.filter fun p => failed.contains p || (s.port p).st != .active
  | 15 | 16 | 17 => ps.filter (failed.contains ·)
  | 19 => (List.range 8).filter fun co => failed.contains co || (courseSet s co && (s.course co).rail != .up)
  | _ => failed

/-- Ports end the waymark they run, some of them skipped, and go on to the next one of WM15 to WM17 at once (R403). -/
def endPorts (s : State) (n : Nat) (failed ps : List Nat) : State :=
  let bad := wmSkipped s n failed ps
  let s := if n = 17 ∧ bad ≠ ps then startLayer s (ps.filter (!bad.contains ·)) else if n = 16 then undriven s bad else s
  let s := skipUnits s n bad
  let s := { s with boot := { s.boot with portWm := s.boot.portWm.zipIdx.map fun e => if ps.contains e.2 then n + 1 else e.1 } }
  if n < 17 ∧ (s.wmRec (n + 1)).result = 0 then wmBegin s (n + 1) else s

/-- Whether every port has ended a waymark, and every one before it (R403). -/
def portsPast (s : State) (n : Nat) : Bool := s.boot.portWm.all (fun k => decide (n < k)) && (n == 14 || wmEnded s (n - 1))

/-- A waymark passes on its running method, its failed units skipped (R404); WM16 passes on its second one where a port did (DEDUCED, log entry 42). -/
def wmPass (s : State) (n : Nat) (failed : List Nat) : State :=
  let later := if n = 16 then s.boot.portPath.contains 1 else (s.wmRec n).path != 0
  let m := if n = 16 then (wmMethods s 16).getD (b2n later) 0 else wmMethod s n
  let s := if n = 19 then skipUnits s n (wmSkipped s n failed []) else if wmKind n = .k ∧ n ≠ 12 ∧ !perPort n then skipUnits s n failed else s
  let s := wmEffect s n failed
  let s := if n = 22 then s else noteMem s n (4 * m)
  let units := (s.wmRec n).units.toNat
  let s := wmClose s n (if n = 19 ∧ units ≠ 0 ∧ units = (coursesSet s).length then 3 else if units ≠ 0 then 7 else if later then 2 else 1) units
  let s := if later then logEv s 0x9002 .masked 0 else s
  wmNext s n

/-- Ports end a waymark, and the waymarks that every port has now ended come to their ends (R403). -/
def wmPortsPass (s : State) (n : Nat) (failed ps : List Nat) : State :=
  let s := endPorts s n failed ps
  if portsPast s n then wmPass s n [] else s

/-- The result of a waymark of the ports of which so many were skipped: passed, some skipped, or all of them. -/
def portsResult (s : State) (n : Nat) : Nat := if n = 0 then 1 else if n < ((List.range 64).filter (s.portEn ·)).length then 7 else 3

/-- Ports whose record fails in WM16: the second method runs for those that failed the first, and the others have none left; the record shows the last method run, and the code of Table 10.11 of the last port (R404, R407). Each port with none left is skipped and not driven. A warm start becomes cold where the first method fails (R402). -/
def recordsFail (s : State) (ps : List Nat) : State :=
  if ps = [] then s else
  let s := if ps.any fun p => s.boot.portPath.getD p 0 == 0 then { s with boot := { s.boot with warm := false } } else s
  let last := ps.filter fun p => s.boot.portPath.getD p 0 != 0
  let code := match ps.getLast? with | some p => s.regF (portReg Reg.SL_REC p) 3 0 | none => 0
  let s := s.updRec 16 fun r => { r with detail := BitVec.ofNat 8 code, path := 1, attempts := if last.length = ps.length then r.attempts else satTo 15 (r.attempts + 1) }
  let s := { s with boot := { s.boot with portPath := s.boot.portPath.zipIdx.map fun e => if ps.contains e.2 then min 2 (e.1 + 1) else e.1 } }
  if last = [] then s else
  let s := endPorts s 16 last last
  if portsPast s 16 then
    let u := (s.wmRec 16).units.toNat
    if portsResult s u = 3 then wmNext (wmClose (noteMem s 16 (4 * (dirMem s 16).1 + satTo 3 ((dirMem s 16).2 + 1))) 16 3 u) 16 else wmPass s 16 []
  else s

/-- WM19 ends without having passed: each configured course that is not UP is skipped and counted (R404, R407). -/
def coursesEnd (s : State) : State :=
  let bad := wmSkipped s 19 [] []
  wmNext (wmClose (skipUnits s 19 bad) 19 (if bad = [] then 1 else if bad.length < (coursesSet s).length then 7 else 3) bad.length) 19

/-- Every method of a waymark has failed: a K waymark is skipped, with each port that runs it, WM16 leaves their slates undriven, any other leads to its SAFE state (R404). -/
def wmExhausted (s : State) (n : Nat) : State :=
  let s := noteMem s n (4 * (dirMem s n).1 + satTo 3 ((dirMem s n).2 + 1))
  if wmKind n = .k ∨ n = 16 then
    let s := if n = 17 then logEv s 0x9010 .action 0 else s
    if perPort n then
      let s := if portsAt s n = [] then logEv s 0x9003 .degraded 0 else s
      let s := endPorts s n (if n = 14 then [] else portsAt s n) (portsAt s n)
      if portsPast s n then wmNext (wmClose s n (portsResult s (s.wmRec n).units.toNat) (s.wmRec n).units.toNat) n else s
    else if n = 19 ∧ coursesSet s ≠ [] then coursesEnd s
    else wmNext (logEv (wmClose s n 3 0) 0x9003 .degraded 0) n
  else
    let s := enterSafe (wmClose s n 4 0) n (wmSafe n)
    if s.boot.outcome = .safePlan then wmGo (wmGo s 12) 13 else s

/-- An attempt of a waymark fails: the method again within its retries (E), the next method, or none left (R404); in WM16 for each port that runs it. A warm start becomes cold once the method that the directory names has failed (R402). -/
def wmFail (s : State) (n detail : Nat) : State :=
  if n = 16 ∧ portsAt s 16 ≠ [] then recordsFail s (portsAt s 16) else
  let s := wmFailEvent s n
  let s := s.updRec n fun r => { r with detail := BitVec.ofNat 8 detail }
  let tries := s.boot.tries.getD n 1
  let again := wmKind n = .e ∧ tries ≤ wmRetries s n
  let path := (s.wmRec n).path
  let s := if again then s else { s with boot := { s.boot with warm := false } }
  if again then
    { s with boot := { s.boot with tries := s.boot.tries.set n (tries + 1), recs := s.boot.recs.modify n fun r => { r with attempts := satTo 15 (r.attempts + 1) } } }
  else if wmKind n ≠ .k ∧ path + 1 < (wmMethods s n).length ∨ n = 17 ∧ path = 0 then
    let s := s.updRec n fun r => { r with attempts := satTo 15 (r.attempts + 1), path := path + 1 }
    { s with boot := { s.boot with tries := s.boot.tries.set n 1 } }
  else wmExhausted s n

/-- WM04 finds the die at 85 °C or more: the start is abandoned (R358), and at the entry to SLEEP, which no order asked for, the directory is written (R408). -/
def abandonHot (s : State) : State :=
  let s := s.updRec 4 fun r => { r with result := 4, detail := 1, dur := s.aon.tick.setWidth 32 - r.start }
  let s := logEv (endStart s .hot) 0x6024 .action 8
  let s := writeDir s (dirFlag s 2) (setFlag 3 false)
  powerDownKept { s with power := { s.power with hotTries := s.power.hotTries + 1, coolWait := true }, boot := { s.boot with inReset := false } }

end Sys2Proof.Machine
end

