-- ==== Sys2Proof/Machine/PowerRows.lean ====
section
/-! DEFINITION. The commands of Chapter 12: power orders, IDLE, DOZE and SLEEP, wake sources, the always-on domain's timers, calendar, crystal, keys and analog inputs, and the thermal model. -/
namespace Sys2Proof.Machine
open Sys2Proof

/-! Orders and transitions -/

/-- The side-lane orders of a tick that name another power state, lowest first (R398). -/
def sideStates (s : State) (tick : BitVec 48) : List Nat := (s.side.orders.filter fun o => o.1 == tick && !o.2.1 && o.2.2.1 == 0).map (·.2.2.2)

/-- The target of a STATE code (Table 13.8). -/
def stateOfCode : Nat → Option PowerState
  | 1 => some .sleep | 2 => some .doze | 4 => some .run | _ => none

/-- POWER (R346, R383, R398): after a RESET of an earlier tick; of two orders of one tick the lower state wins. -/
def execPower (r : RingId) (cid : Word) (s : State) : Out :=
  match s.startable r cid 0x60 with
  | none => ok s
  | some t =>
    let h : HostRef := (r, t.seq)
    match stateOfCode (t.field 8 1) with
    | none => ok (refuseOrder s h .badCommand 0x05)
    | some st =>
      if st ≠ .sleep ∧ t.field 12 4 ≠ 0 then ok (refuseOrder s h .badCommand 0x05) else
      let o : Order := ⟨st, BitVec.ofNat 32 (t.field 12 4), .host h, t.tick, none⟩
      if earlierSide s t.tick [0x13] then ok s else
      let s := s.begin h
      if (sideStates s t.tick).any (fun v => decide (v < t.field 8 1)) then ok (answerOrder s o .yielded) else ok (applyOrder s o)

/-- PM_AUTO.IDLEUS of idleness: IDLE (R345). -/
def execIdleEntry (s : State) : Out :=
  if s.power.st ≠ .run ∨ s.power.inTrans ∨ !dspIdle s ∨ !veIdle s ∨ !s.hif.dma.isEmpty then ok s else ok (setPower s .idle)

/-- PM_AUTO.DOZESEC seconds in IDLE ask for DOZE (Table 12.2). -/
def execDozeAutoTimer (s : State) : Out :=
  if s.regF Reg.PM_AUTO 9 0 = 0 ∨ s.power.st ≠ .idle ∨ s.power.cur.isSome then ok s else ok (applyOrder s ⟨.doze, 0, .auto, s.aon.tick, none⟩)

/-- Whether every role is in WAIT (R255, Table 12.2). -/
def rolesWait (s : State) : Bool := (s.cores.take 17).all fun k => k.role.isNone || k.retired || (k.running && !k.halted && k.waiting)

/-- A course at DOZE entry: with KEEP = 1 it stays UP in light-load mode, with KEEP = 0 it is powered off (R325). -/
def dozeCourse (s : State) (co : Nat) : State :=
  let st := (s.course co).rail
  if s.regF (rlReg Reg.RL_CO_CFG co) 15 15 = 1 then (if st = .up then s.updCourse co fun c => { c with dozeUp := true } else s)
  else if st = .up ∨ st = .rising then startPowerOff (s.updCourse co fun c => { c with autoOff := c.autoOff || !c.offWait, onWait := false }) co else s

/-- The ASPM state that the endpoint enters, L1, L1.1 or L1.2 as the host enables it: a free value (Table 12.6) (DESIGN CHOICE, log entry 40). -/
def lowPower (s : State) : BitVec 2 × State := let (v, s) := s.free; (BitVec.ofNat 2 (1 + v.toNat % 3), s)

/-- DOZE (R347, Table 12.1): a DOZE order waits for the dispatcher to be idle and every role to be in WAIT; ports go OFF and keep their sessions, and the order completes just before the endpoint enters L1 (DESIGN CHOICE, log entry 40). -/
def execDozeEntry (s : State) : Out :=
  match s.power.cur with
  | none => ok s
  | some o =>
    if o.target ≠ .doze ∨ s.power.inTrans ∨ !(s.power.st == .run || s.power.st == .idle) ∨ !dspIdle s ∨ !rolesWait s then ok s else
    let s := answerOrder { s with power := { s.power with cur := none } } o .ok
    let s := (List.range 8).foldl dozeCourse s
    let s := (List.range 64).foldl (fun s p => setPortSt s p .off) s
    let s := recordStale (alertLow (logEv s 0x6010 .note 8 0xFF [s.power.st.code, 2, 0xFF]))
    let (v, s) := lowPower s
    ok { s with power := { s.power with st := .doze, dozeAt := s.aon.tick, clkWf := false, clkXspi := false }, hif := { s.hif with aspm := v } }

/-- A wake source in DOZE (Table 12.3). -/
def execDozeExit (src : WakeBit) (s : State) : Out := if s.power.st = .doze ∧ wakeEnabled s src.val then ok (dozeExit s src) else ok s

/-- Once the dispatcher is idle, and the life writes have ended, steps 3 to 5 of R348 begin: the slot holds the records of lost regions alone, and every course is powered off; the main domain goes off when both are done. -/
def execSleepEntry (s : State) : Out :=
  match s.power.cur with
  | none => ok s
  | some o =>
    let img := journalImage s
    if o.target ≠ .sleep ∨ !s.power.inTrans ∨ s.power.vinStep ≠ 0 ∨ !dspIdle s ∨ img.any (·.kind != .lost) ∨ s.ports.any (·.lifeW.isSome) then ok s else
    let slot := if s.ssWords = 0 then none else some (slotImage s img)
    let s := stopDrive { s with power := { s.power with sleepOrd := true } }
    let s := { s with power := { s.power with vinStep := if slot.isSome then 3 else 5 }, boot := { s.boot with jrnSlot := slot } }
    ok (stopEnd s)

/-- A wake source in SLEEP (Table 12.2, R350, R351). -/
def execWakeFromSleep (src : WakeBit) (s : State) : Out :=
  if s.power.st ≠ .sleep ∨ src = 0 ∨ src = 7 ∨ !wakeEnabled s src.val then ok s else ok (wakeSleep s (some src))

/-- VIN_RAIL as the supply monitor reads it, with PFAIL_N high again: a wake kept pending proceeds once VIN has risen (R351) (DEDUCED, log entry 38). -/
def execVinRestored (vin : BitVec 9) (s : State) : Out :=
  let s := rearmVin ((s.regSet Reg.RL_VIN vin.toNat).regSetF Reg.RL_STAT 12 12 0) vin.toNat
  if s.power.st = .sleep ∧ (s.power.wakePend ≠ [] ∨ s.power.wakeHeld) ∧ vinWakes s then ok (wakeSleep s none) else ok s

/-! Wake timers, calendar and crystal (R352, R353) -/

/-- Wake timer n reaches 0: cause 0x12 or 0x13 on the AOC, and a wake. -/
def wakeTimer (s : State) (n : Fin 2) : State :=
  let s := raiseInt (s.regSet (Reg.AON_WT + 2 * n.val) 0 2) 16 (0x12 + n.val) 0 0
  wakeEvent s (if n = 0 then 3 else 4)

/-- WAKE_TIMER_EXPIRY: a timer that runs reaches 0; a stopped one does not. -/
def execWakeTimerExpiry (n : Fin 2) (s : State) : Out :=
  if !s.boot.vstby ∨ s.reg (Reg.AON_WT + 2 * n.val) 2 = 0 then ok s else ok (wakeTimer s n)

/-- A byte as two BCD digits; none where a digit is above 9. -/
def bcd (b : Nat) : Option Nat := if b / 16 ≤ 9 ∧ b % 16 ≤ 9 then some (b / 16 * 10 + b % 16) else none
/-- A number below 100 in BCD. -/
def bcdByte (n : Nat) : Nat := n / 10 * 16 + n % 10

/-- Days of a month; every year divisible by 4 is a leap year (R353). -/
def monthDays (year month : Nat) : Nat :=
  if month = 2 then (if year % 4 = 0 then 29 else 28) else if month = 4 ∨ month = 6 ∨ month = 9 ∨ month = 11 then 30 else 31

/-- A calendar value's fields: second, minute, hour, day, month, year, weekday. -/
structure Cal where
  sec   : Nat
  min   : Nat
  hour  : Nat
  day   : Nat
  month : Nat
  year  : Nat
  wday  : Nat
  deriving DecidableEq, Repr

/-- A value of AON_CAL (Table 12.14); none where R353 discards it. -/
def calOf (w0 w1 w2 w3 : Nat) : Option Cal :=
  match bcd (w0 % 256), bcd (w0 / 256), bcd (w1 % 256), bcd (w1 / 256), bcd (w2 % 256), bcd (w2 / 256) with
  | some sec, some min, some hour, some day, some month, some year =>
    let wday := w3 % 8
    if sec < 60 ∧ min < 60 ∧ hour < 24 ∧ 1 ≤ month ∧ month ≤ 12 ∧ 1 ≤ day ∧ day ≤ monthDays year month ∧ wday ≠ 0 then some ⟨sec, min, hour, day, month, year, wday⟩ else none
  | _, _, _, _, _, _ => none

/-- The words of a calendar value. -/
def Cal.words (c : Cal) : List Nat := [bcdByte c.sec + 256 * bcdByte c.min, bcdByte c.hour + 256 * bcdByte c.day, bcdByte c.month + 256 * bcdByte c.year, c.wday]

/-- One second later. -/
def Cal.next (c : Cal) : Cal :=
  if c.sec < 59 then { c with sec := c.sec + 1 } else
  if c.min < 59 then { c with sec := 0, min := c.min + 1 } else
  if c.hour < 23 then { c with sec := 0, min := 0, hour := c.hour + 1 } else
  let wday := if c.wday = 7 then 1 else c.wday + 1
  if c.day < monthDays c.year c.month then { c with sec := 0, min := 0, hour := 0, day := c.day + 1, wday := wday } else
  if c.month < 12 then { c with sec := 0, min := 0, hour := 0, day := 1, month := c.month + 1, wday := wday }
  else { c with sec := 0, min := 0, hour := 0, day := 1, month := 1, year := (c.year + 1) % 100, wday := wday }

/-- The stored words of AON_CAL. -/
def calWords (s : State) : List Nat := (List.range 4).map fun i => (s.regW (Reg.AON_CAL + i)).toNat

/-- The calendar set, its four words at once. -/
def putCal (s : State) (ws : List Nat) : State := ws.zipIdx.foldl (fun s e => s.regSet (Reg.AON_CAL + e.2) e.1) s

/-- Whether the armed alarm matches a calendar value: every field that is not *any* is equal. -/
def alarmMatches (s : State) (ws : List Nat) : Bool :=
  let a (i : Nat) : Nat := (s.regW (Reg.AON_ALARM + i)).toNat
  let byteOk (x y : Nat) : Bool := x == 0xFF || x == y
  bitN (a 3) 15 && (List.range 3).all (fun i => byteOk (a i % 256) (ws.getD i 0 % 256) && byteOk (a i / 256) (ws.getD i 0 / 256)) &&
    (a 3 % 8 == 0 || a 3 % 8 == ws.getD 3 0 % 8)

/-- The calendar advances one second; the alarm fires where it matches, or where a calendar write has made it match since the last second (R353). -/
def calendarSecond (s : State) : State :=
  let ws := calWords s
  let next := match calOf (ws.getD 0 0) (ws.getD 1 0) (ws.getD 2 0) (ws.getD 3 0) with | some c => c.next.words | none => ws
  let jump := s.aon.calJump
  let s := putCal { s with aon := { s.aon with tickFrac := 0, calJump := false } } next
  if alarmMatches s next || jump then wakeEvent s 2 else s

/-- CALENDAR_SECOND. -/
def execCalendarSecond (s : State) : Out := if !s.boot.vstby then ok s else ok (calendarSecond s)

/-- A calendar value written as a whole (R353). -/
def writeCal (s : State) (w0 w1 w2 w3 : Nat) : State :=
  match calOf w0 w1 w2 w3 with
  | none => logEv (s.regSetF Reg.AON_STAT 12 12 1) 0x6031 .note 9
  | some c =>
    let s := putCal { s with aon := { s.aon with tickFrac := 0 } } c.words
    { s with aon := { s.aon with calJump := alarmMatches s c.words } }

/-- CALENDAR_WRITE: AON_CAL's last word is written, the four words being the value; words held for it are used up (R8). -/
def execCalendarWrite (w0 w1 w2 w3 : Word) (s : State) : Out :=
  if !s.boot.vstby then ok s else
  ok (writeCal (s.dropHeld Reg.AON_CAL 4) w0.toNat w1.toNat w2.toNat w3.toNat)

/-- The crystal's check, every 1 s: stopped, the burst oscillator drives the tick (R352) (DESIGN CHOICE, log entry 40). -/
def execCrystalCheck (running : Bool) (s : State) : Out :=
  if !s.boot.vstby then ok s else
  let s' := { s with aon := { s.aon with xtalF := !running } }
  if !running && !s.aon.xtalF then ok (logEv s' 0x6030 .action 9) else ok s'

/-! Keys and analog inputs (R354, R355) -/

/-- A change enters the key FIFO; in a full one it is lost and KOVF sets. -/
def keyPush (s : State) (key : Nat) (press : Bool) : State :=
  if 16 ≤ s.aon.fifo.length then s.regSetF Reg.AON_STAT 11 11 1
  else { s with aon := { s.aon with fifo := s.aon.fifo ++ [wd (32768 + 16384 * b2n press + 256 * key + s.aon.scanNo.toNat)] } }

/-- One scan of the matrix: a key changes state after 2 consecutive scans that read the new state (DESIGN CHOICE, log entry 40). -/
def execKeyScan (matrix : BitVec 64) (s : State) : Out :=
  if !s.boot.vstby ∨ s.regF Reg.AON_KEYCFG 7 4 = 0 then ok s else
  let s := { s with aon := { s.aon with scanNo := s.aon.scanNo + 1 } }
  let down := s.reg Reg.AON_KEYS 4
  let changed := (List.range 64).filter fun k => matrix.getLsbD k == s.aon.prevScan.getLsbD k && matrix.getLsbD k != bitN down k
  let s := changed.foldl (fun s k => keyPush (s.regSetF Reg.AON_KEYS k k (b2n (matrix.getLsbD k)) 4) k (matrix.getLsbD k)) s
  let s := { s with aon := { s.aon with prevScan := matrix } }
  let mask := s.reg Reg.AON_KEYWAKE 4
  if changed.any (fun k => matrix.getLsbD k && bitN mask k) then ok (wakeEvent s 5) else ok s

/-- The oldest entry of the key FIFO is removed; what its read returns (R362). -/
def keyPop (s : State) : Word × State :=
  match s.aon.fifo with
  | [] => (0, s)
  | w :: r => (w, { s with aon := { s.aon with fifo := r } })

/-- One sample of an input: a threshold event after 2 consecutive samples outside LO to HI, again only after one within. -/
def ainSample (s : State) (n code : Nat) : State :=
  if !bitN (s.reg Reg.AON_AINCFG) n then s else
  let s := s.regSet (Reg.AON_AIN + n) code
  let outside := code < s.regF (Reg.AON_AINLO + 2 * n) 9 0 || s.regF (Reg.AON_AINHI + 2 * n) 9 0 < code
  if !outside then { s with aon := { s.aon with ainBad := s.aon.ainBad.set n 0, ainRaised := s.aon.ainRaised.set n false } } else
  let bad := satTo 2 (s.aon.ainBad.getD n 0 + 1)
  let s := { s with aon := { s.aon with ainBad := s.aon.ainBad.set n bad } }
  if bad < 2 ∨ s.aon.ainRaised.getD n false then s else
  wakeEvent { s with aon := { s.aon with ainRaised := s.aon.ainRaised.set n true } } 6

def execAnalogSample (c0 c1 c2 c3 : BitVec 10) (s : State) : Out :=
  if !s.boot.vstby then ok s else ok (([c0, c1, c2, c3].zipIdx).foldl (fun s e => ainSample s e.2 e.1.toNat) s)

/-! Temperature (R357 to R359) -/

/-- A word as a signed reading in 1/16 °C. -/
def temp16 (w : Nat) : Int := toSigned 16 w

/-- Throttle begins at 95 °C and ends below 92 °C (Table 12.7). -/
def throttleCheck (s : State) (t : Int) : State :=
  if 95 * 16 ≤ t ∧ !s.power.throttle then
    raiseClass (logEv ({ s with power := { s.power with throttle := true } }.regSet Reg.PM_HRATE 0) 0x6020 .degraded 8) 0x18 0x2000
  else if t < 92 * 16 ∧ s.power.throttle then raiseClass (logEv { s with power := { s.power with throttle := false } } 0x6021 .note 8) 0x18 0x2000
  else s

/-- A hard trip (Table 12.7): the sequence of Table 11.5 runs at once, and ends in SLEEP; one already running goes on. -/
def hardTrip (s : State) : State :=
  let s := yieldOrders s
  let s := logEv { s with power := { s.power with tripped := true, hard := true, stopping := false, inTrans := false } } 0x6023 .stop 8
  if s.power.vinStep ≠ 0 then stopRails s else stopDrive s

/-- An orderly stop begins: no new span starts, running spans go on for up to 10 ms, every front light goes low, and the life counters are written (Table 12.7, R312, R336). Where a stop already drives, that one goes on. -/
def orderlyStop (s : State) : State :=
  let s := yieldOrders s
  let s := { s with power := { s.power with stopping := s.power.vinStep == 0, tripped := true, inTrans := false }, disp := { s.disp with noSpans := true } }
  let s := if s.power.vinStep = 0 then writeLives s else s
  lightCheckAll (raiseClass (logEv s 0x6022 .stop 8) 0x18 0x3000)

/-- The thresholds of Table 12.7 act on TMAX, each once. -/
def thermalAct (s : State) (t : Int) : State :=
  let s := throttleCheck s t
  if t < 108 * 16 then s
  else if 115 * 16 ≤ t then (if s.power.hard then s else hardTrip s)
  else if s.power.tripped then s
  else orderlyStop s

/-- Whether the 24 sensors are listed. -/
def tempsOk (temps : List Word) : Bool := temps.length == 24

/-- One reading of the die's 24 sensors, the HBM stacks and the rail die: TMAX is the highest of the first 26 (R357) (DEDUCED, log entry 39). -/
def execThermalSample (temps : List Word) (hbm0 hbm1 railTemp : Word) (s : State) : Out :=
  if !tempsOk temps then .fault .illFormed else
  if !s.boot.mainOn then ok s else
  let all := temps ++ [hbm0, hbm1]
  let tmax := all.foldl (fun (a : Word) (w : Word) => if a.slt w then w else a) hbm0
  let s := temps.zipIdx.foldl (fun s e => s.regSet (Reg.PM_TEMP + e.2) e.1.toNat) s
  let s := (((s.regSet Reg.PM_HBMT hbm0.toNat).regSet (Reg.PM_HBMT + 1) hbm1.toNat).regSet Reg.PM_TMAX tmax.toNat).regSet Reg.RL_TEMP railTemp.toNat
  ok (thermalAct s (temp16 tmax.toNat))

/-- HRATE of the thermal model (R359). -/
def heatRateOf (s : State) : Nat :=
  if s.power.throttle then 0 else
  let lim : Int := s.regF Reg.PM_THERM 15 8
  let gain : Int := s.regF Reg.PM_THERM 7 0
  let h : Int := (s.regF Reg.PM_HBASE 6 0 : Nat) + gain * (16 * lim - temp16 (s.reg Reg.PM_TMAX)) / 16
  min (min (max h 0) 120).toNat (capWatts s)

def execHeatRateUpdate (s : State) : Out := ok (s.regSet Reg.PM_HRATE (heatRateOf s))

/-- 10 ms after an orderly stop began, or once no span runs: the stop of R193 with the power-off of every course (R357). -/
def execOrderlyStopDeadline (s : State) : Out :=
  if !s.power.stopping ∨ s.power.vinStep ≠ 0 ∨ s.power.vinf then ok s else ok (stopDrive s)

/-- COOLSEC after a stop or a hot WM04 the AOC starts the cold path, unless TRIES hot starts in a row have been refused (R358) (DESIGN CHOICE, log entry 40). -/
def execCoolDownExpiry (s : State) : Out :=
  if !s.power.coolWait ∨ s.boot.inReset ∨ tripTries s ≤ s.power.hotTries then ok s else
  ok { s with power := { s.power with coolWait := false }, boot := { s.boot with cause := 9, inReset := true } }

/-- An on-demand clock stops after 1 ms without a requester: WF and xSPI in IDLE, the burst oscillator while the AOC waits (Table 12.6). -/
def execClockIdleStop (clk : Fin 3) (s : State) : Out :=
  let p := s.power
  if clk = 0 then (if p.st = .idle ∧ s.ve.builds.all (·.isNone) ∧ s.ve.buildQ.isEmpty then ok { s with power := { p with clkWf := false } } else ok s)
  else if clk = 1 then (if p.st = .idle ∧ s.memc.ssq.isEmpty then ok { s with power := { p with clkXspi := false } } else ok s)
  else if (s.core 17).waiting ∨ (s.core 17).halted then ok { s with power := { p with clkBurst := false } } else ok s

end Sys2Proof.Machine
end

