-- ==== Sys2Proof/Machine/HostRing.lean ====
section
/-! DEFINITION. Submission and completion rings: configuration, doorbells, ring errors, the taking of entries and their checks (R370 to R377), and PCIe resets (R364). -/
namespace Sys2Proof.Machine
open Sys2Proof

def ringReg (k r : Nat) : Nat := k + 32 * r

/-- A ring error, or an invalid configuration: ERR with its code, EV-0x7030, and the event vector (R370, R371, R375). -/
def ringError (s : State) (r code : Nat) : State :=
  let n := s.ras.evq.length
  let s := logEv (s.updRing r fun x => { x with err := true, errCode := BitVec.ofNat 4 code }) 0x7030 .action 1 r [r, code]
  if s.ras.evq.length = n then signalEventVec s else s

/-- A write of EN = 1 (R370): rejected while commands are outstanding; with a valid configuration every index restarts (DEDUCED, log entry 23). -/
def ringEnable (s : State) (r : Nat) : State :=
  let sqb := s.reg (ringReg Reg.HIF_SQ_BASE r) 4
  let cqb := s.reg (ringReg Reg.HIF_CQ_BASE r) 4
  let sqn := s.regF (ringReg Reg.HIF_SQ_SIZE r) 12 0
  let cqn := s.regF (ringReg Reg.HIF_CQ_SIZE r) 12 0
  if (s.ring r).out ≠ 0 then rejectChange s 1
  else if sqb % 64 ≠ 0 ∨ cqb % 64 ≠ 0 ∨ sqn < 2 ∨ 4096 < sqn ∨ cqn < 2 ∨ 4096 < cqn then ringError (s.updRing r fun x => { x with en := false }) r 3
  else
    let s := (s.regSet (ringReg Reg.HIF_SQ_TAIL r) 0).regSet (ringReg Reg.HIF_CQ_HEAD r) 0
    s.updRing r fun x => { x with en := true, sqBase := BitVec.ofNat 64 sqb, cqBase := BitVec.ofNat 64 cqb, sqSize := sqn, cqSize := cqn,
                                  sqHead := 0, sqTail := 0, cqHead := 0, cqTail := 0, phase := true, unrel := 0, err := false, errCode := 0, unsig := 0, bells := [] }

/-- A write of EN = 0: no further entry is taken; commands taken complete (R370). -/
def ringDisable (s : State) (r : Nat) : State := s.updRing r fun x => { x with en := false }

/-- The SQ tail doorbell (R371): it makes new entries available, and raises cause 0x14 (R386). On a ring that is disabled or in error the index is only kept to be read back. Any doorbell leaves IDLE (R345). -/
def tailDoorbell (s : State) (r t : Nat) : State :=
  let s := leaveIdle (s.regSet (ringReg Reg.HIF_SQ_TAIL r) t)
  let g := s.ring r
  if !g.en || g.err then s
  else if g.sqSize ≤ t then ringError s r 1
  else
    let s := s.updRing r fun x => { x with sqTail := t, bells := if t = x.sqTail then x.bells else x.bells ++ [(t, s.time, s.aon.tick)] }
    raiseClass s 0x14 r

/-- The CQ head doorbell (R371): it releases the completions consumed. A head equal to the one before releases none. -/
def headDoorbell (s : State) (r h : Nat) : State :=
  let s := leaveIdle (s.regSet (ringReg Reg.HIF_CQ_HEAD r) h)
  let g := s.ring r
  if !g.en || g.err then s
  else
    let n := (h + g.cqSize - g.cqHead) % g.cqSize
    if g.cqSize ≤ h ∨ g.unrel < n then ringError s r 2
    else raiseClass (s.updRing r fun x => { x with cqHead := h, unrel := x.unrel - n }) 0x14 (16 + r)

/-- SQ_TAIL_DOORBELL: a host write of a ring's SQ tail (DEDUCED, log entry 23). -/
def execSqTailDoorbell (r : RingId) (tail : BitVec 12) (s : State) : Out :=
  if !s.boot.mainOn then ok s else ok (tailDoorbell (hostAccess s) r.val tail.toNat)

/-- CQ_HEAD_DOORBELL: a host write of a ring's CQ head (DEDUCED, log entry 23). -/
def execCqHeadDoorbell (r : RingId) (head : BitVec 12) (s : State) : Out :=
  if !s.boot.mainOn then ok s else ok (headDoorbell (hostAccess s) r.val head.toNat)

/-- RING_ENABLE: a host write of HIF_RINGn_CTRL with EN = 1. -/
def execRingEnable (r : RingId) (s : State) : Out :=
  if !s.boot.mainOn then ok s else ok (ringEnable (hostAccess s) r.val)

/-- RING_DISABLE: a host write of HIF_RINGn_CTRL with EN = 0. -/
def execRingDisable (r : RingId) (s : State) : Out :=
  if !s.boot.mainOn then ok s else ok (ringDisable (hostAccess s) r.val)

/-! Taking entries (R372, R376) -/

/-- Whether an opcode is defined, and whether its command has a class (Table 13.6). -/
def opKnown (op : Nat) : Bool := [0x01, 0x02, 0x10, 0x11, 0x20, 0x30, 0x31, 0x32, 0x33, 0x40, 0x41, 0x50, 0x60, 0x70, 0x71, 0x80, 0x81].contains op
def opHasClass (op : Nat) : Bool := [0x10, 0x11, 0x20, 0x30].contains op

/-- The permission bit of HIF_RINGn_PERM that a command needs: VEC 3, PLAN 2, CAL 1, PWR 0 (Table 13.6). -/
def opPermission (op : Nat) : Option Nat :=
  match op with
  | 0x40 | 0x41 => some 1
  | 0x50 => some 3
  | 0x60 => some 0
  | 0x80 | 0x81 => some 2
  | _ => none

/-- The bits of each byte of a body that a field names, as (first byte, mask of each byte) (Table 13.8); an internal address names 36 bits of its 8 bytes. -/
def bodyFields (op : Nat) : List (Nat × List Nat) :=
  let all (n : Nat) : List Nat := List.replicate n 0xFF
  let addr : List Nat := [0xFF, 0xFF, 0xFF, 0xFF, 0x0F]
  match op with
  | 0x10 | 0x11 => [(8, all 20), (32, addr), (40, all 4)]
  | 0x20 => [(8, addr), (16, all 16), (32, [0xFF, 0x03]), (36, addr), (44, addr)]
  | 0x30 => [(8, all 8), (16, [0x0F]), (20, all 4)]
  | 0x31 | 0x32 | 0x33 => [(8, [0x0F]), (10, all 2)]
  | 0x40 => [(8, all 12), (20, [0x0F]), (24, all 8)]
  | 0x41 => [(8, all 12), (20, [0x3F, 0x01])]
  | 0x50 => [(8, addr), (16, all 2)]
  | 0x60 => [(8, [0xFF]), (12, all 4)]
  | 0x70 => [(8, all 12), (20, [0xFF]), (24, all 4)]
  | 0x71 => [(8, all 12), (20, [0x3F, 0x01])]
  | 0x80 => [(8, all 12)]
  | 0x81 => [(8, [0x01])]
  | _ => []

/-- The bits of byte i that the entry of an opcode may set (Tables 13.4, 13.8). -/
def byteMask (op i : Nat) : Nat :=
  match i with
  | 0 | 2 | 3 => 0xFF
  | 1 => 0x0D
  | _ => ((bodyFields op).map fun f => if f.1 ≤ i then f.2.getD (i - f.1) 0 else 0).foldl (fun a b => if a = 0 then b else a) 0

/-- Whether every reserved field of an entry is zero. -/
def entryReservedOk (op : Nat) (e : List Byte) : Bool := (List.range 64).all fun i => byteAt e i &&& byteMask op i == byteAt e i

/-- Checks 1 and 2 of R376: the status that refuses a command, with DETAIL (DEDUCED, log entry 23). -/
def takeCheck (s : State) (r : Nat) (e : List Byte) : Option (Status × Nat) :=
  let op := byteAt e 0
  let cls := bitsN (byteAt e 1) 3 2
  let cid := wd (fieldBytes e 2 2)
  if !opKnown op then some (.badCommand, 0x02)
  else if !entryReservedOk op e then some (.badCommand, 0x01)
  else if opHasClass op == (cls == 0) then some (.badCommand, 0x04)
  else if (s.ring r).taken.any (fun t => t.cid == cid && !t.lostC) then some (.badCommand, 0x03)
  else match opPermission op with
    | some b => if bitN (s.regF (ringReg Reg.HIF_RING_PERM r) 3 0) b then none else some (.permission, 0)
    | none => none

/-- The entry at SQ head is taken: it counts as accepted (R445), takes the time of the doorbell that named it and the queue that its ring may use (Table 15.9), and passes or fails checks 1 and 2. -/
def takeEntry (s : State) (r : RingId) (e : List Byte) : State :=
  let g := s.ring r.val
  let head := if g.sqHead + 1 ≥ g.sqSize then 0 else g.sqHead + 1
  let bell := g.bells.headD (g.sqTail, s.time, s.aon.tick)
  let op := byteAt e 0
  let t : Taken := ⟨wd (fieldBytes e 2 2), BitVec.ofNat 8 op, bitsN (byteAt e 1) 3 2, bitN (byteAt e 1) 0 || op == 0x02, e, g.nextSeq, false, false, bell.2.1, bell.2.2, 0, 0, 0, false, s.regF (ringReg Reg.HIF_RING_PERM r.val) 11 8⟩
  let chk := takeCheck s r.val e
  let s := s.updRing r.val fun x => { x with sqHead := head, bells := if head = bell.1 then x.bells.drop 1 else x.bells,
                                             taken := x.taken ++ [t], nextSeq := x.nextSeq + 1, acc := x.acc + 1 }
  match chk with
  | some (st, d) => postCompletion (s.begin (r, t.seq)) (r, t.seq) st d
  | none =>
    if op = 0x60 then noteOrder s t.tick true 0 (byteAt e 8)
    else if op = 0x30 then noteOrder s t.tick true 1 0 else s

/-- SUBMISSION_ENTRY_TAKE (R372): the 64 bytes that host memory returns, or none where the fetch ends in a host-memory error (R371) (DESIGN CHOICE, log entry 12). -/
def execSubmissionEntryTake (r : RingId) (entry : Option (List Byte)) (s : State) : Out :=
  match entry with
  | none => if canTake s r.val then ok (ringError s r.val 4) else ok s
  | some e => if e.length ≠ 64 then .fault .illFormed else if canTake s r.val then ok (takeEntry s r e) else ok s

/-- CQ_COALESCE_TIMER (R375): TIME × 8 µs after the first completion not yet signalled. -/
def execCqCoalesceTimer (r : RingId) (s : State) : Out :=
  let k := ringReg Reg.HIF_CQ_IRQ r.val
  if s.regF k 15 15 = 1 ∧ s.regF k 3 0 ≠ 0 ∧ (s.ring r.val).unsig ≠ 0 then ok (signalRing s r.val) else ok s

/-! The endpoint's identity (Table 13.1) -/

/-- Vendor ID, device ID, class code, subsystem vendor ID and subsystem ID of the configuration space; the last two from the device fuses where they are fused (R363). -/
def pcieIdentity : Word × Word × BitVec 24 × Word × Word :=
  let sub := Config.fusedSubsystem.getD (0x1FA7, 0x6400)
  (0x1FA7, 0x6400, 0x038000, sub.1, sub.2)

/-! PCIe resets -/

/-- Commands that use host memory (R364). -/
def usesHostMem (op : Nat) : Bool := [0x10, 0x11, 0x40, 0x41, 0x70, 0x71, 0x80].contains op

/-- HIF registers that a PCIe reset keeps: HIF_LOSTCPL and HIF_BADWR (R364). -/
def keptHif (key : Nat) : Bool := key / 65536 != 1 || (0x10008 ≤ key && key ≤ 0x1000B)

/-- The HIF block's part of a PCIe reset (R364): rings disabled, host transfers stopped and their commands ended, completions lost and counted. Commands not yet started still run. -/
def hifReset (s : State) : State :=
  let n := (s.hif.rings.map Ring.out).foldl (· + ·) 0
  let ring (g : Ring) : Ring :=
    { Ring.reset with taken := (g.taken.filter fun t => !(usesHostMem t.op.toNat && t.started)).map fun (t : Taken) => { t with lostC := true }
                      nextSeq := g.nextSeq, acc := g.acc, cpl := g.cpl, lost := g.lost + BitVec.ofNat 32 g.out }
  let s := { s with hif := { s.hif with rings := s.hif.rings.map ring, dma := [], movers := List.replicate 8 none }
                    regs := ⟨s.regs.val.filter (fun e => keptHif e.1), s.regs.eff.filter (fun e => keptHif e.1),
                             s.regs.cap.filter (fun e => keptHif e.1), s.regs.held.filter (fun e => keptHif e.1)⟩ }
  if n = 0 then s else logEv (s.regSatInc Reg.HIF_LOSTCPL 2 n) 0x7050 .action 1 0xFF [n % 65536, n / 65536]

/-- PCIE_RESET: function-level reset, hot reset, PERST# (R458) or loss of the link. The link stays up at a function-level reset alone; the MSI-X table keeps its contents at a loss of the link alone (PRESUMED, log entry 22) (DEDUCED, log entry 23). -/
def execPcieReset (kind : PcieResetKind) (s : State) : Out :=
  if !s.boot.mainOn then ok s else
  let s := hifReset s
  let s := if kind = .linkLoss then s else { s with hif := { s.hif with msix := State.reset.hif.msix, pba := 0, cfg := PcieCfg.reset } }
  if kind = .flr then ok s else ok { s with hif := { s.hif with linkUp := false, speed := 0, width := 0, aspm := 0 } }

/-- The speeds and widths of Table 13.1, Gen1 to Gen4 and x1, x2, x4 or x8. -/
def linkKnown (speed : BitVec 3) (width : BitVec 4) : Bool := decide (1 ≤ speed.toNat ∧ speed.toNat ≤ 4) && [1, 2, 4, 8].contains width.toNat

/-- PCIE_LINK_UP: the link has trained, in WM13 or in the background (R403), at a speed and width of Table 13.1; HIF_LINK reports it. -/
def execPcieLinkUp (speed : BitVec 3) (width : BitVec 4) (s : State) : Out :=
  if !s.boot.mainOn || !linkKnown speed width then ok s else ok { s with hif := { s.hif with linkUp := true, speed := speed, width := width, aspm := 0 } }

end Sys2Proof.Machine
end

