-- ==== Sys2Proof/Machine/StopRows.lean ====
section
/-! DEFINITION. The commands of a stop: VIN-fail, the credit wait, the journal slot, the end of the hold-up, the end of a course's power-off (R193, R339 to R341, R401), and the writes of the state store (R58, R441). -/
namespace Sys2Proof.Machine
open Sys2Proof

/-- VIN_RAIL is below its threshold, or PFAIL_N is low while PFEN = 1, for 10 µs (R338); a fall of MAIN_PG raises it too (R453) (DEDUCED, log entry 38). -/
def execVinFail (src : VinSource) (vin : BitVec 9) (s : State) : Out :=
  if !s.boot.mainOn ∧ src ≠ .mainPg then ok s else
  let s := s.regSet Reg.RL_VIN vin.toNat
  match src with
  | .vin =>
    if vin.toNat < vinThr s ∧ !s.power.vinLow then ok (vinFail { s with power := { s.power with vinLow := true } } 0 vin.toNat) else ok (rearmVin s vin.toNat)
  | .pfail =>
    let s := s.regSetF Reg.RL_STAT 12 12 1
    if s.regF Reg.RL_VINCFG 15 15 = 1 then ok (vinFail s 1 vin.toNat) else ok s
  | .mainPg => if s.boot.pwrEn ∧ !s.boot.mainPg then ok (vinFail s 2 vin.toNat) else ok s

/-- The 200 µs wait for credits ends: LINE, RLINE and DOUBT are fixed, and the slot is written (R193). -/
def execVinFailCreditWaitEnd (s : State) : Out :=
  if s.power.vinStep ≠ 1 then ok s else
  let img := journalImage { s with disp := { s.disp with stopped := false } }
  let s := { s with disp := { s.disp with image := img } }
  if s.ssWords ≠ 0 then ok { s with power := { s.power with vinStep := 3 }, boot := { s.boot with jrnSlot := some (slotImage s img) } }
  else ok (stopEnd (answerReset { s with power := { s.power with vinStep := 5 } }))

/-- The records and then the header of the slot are durable (R57). -/
def execJournalSlotDurable (s : State) : Out :=
  match s.boot.jrnSlot with
  | none => ok s
  | some img =>
    if s.power.vinStep ≠ 3 then ok s else
    let s := answerReset (writeSlot s img)
    ok (stopEnd { s with boot := { s.boot with jrnSlot := none }, power := { s.power with vinStep := 5 } })

/-- 8.0 ms after a VIN-fail (R339 step 7, R341): the start of cause 0x8 follows, at once where VIN is back, and after the main supplies have fallen where it is not (DEDUCED, log entry 38). -/
def execHoldUpEnd (vinBack : Bool) (s : State) : Out :=
  if !s.power.vinf then ok s else
  let s := if vinBack then mainReset { s with power := { s.power with vinLow := false } } else powerDown s
  ok { s with boot := { s.boot with cause := 8, inReset := true } }

/-- A rail passes the level at which the next step of a power-off begins; at the last one the course is OFF, and a stop may end (R323) (DEDUCED, log entry 37). -/
def execRailDischarged (co : CourseId) (s : State) : Out := ok (stopEnd (railDischarge s co.val))

/-- A channel of the state store is lost (R441): no span starts, every region parks at its next milestone, and the AOC records the loss; a persisted swap whose directory has not become durable ends as check 0x14 gives (DEDUCED, log entry 32). -/
def loseStore (s : State) : State :=
  let s := logEv s 0x1031 .stop 5
  let s := { s with memc := { s.memc with ssLost := true, ssq := [], ssFails := [] }, aon := { s.aon with ssLoss := true } }
  let open' := s.disp.regions.filter fun r => r.live && !r.cur && !r.nxt && (r.st == .admitted || r.st == .parked)
  let s := open'.foldl (fun s r => s.updRegion r.id fun q => { q with st := .parked, reason := .loss, holdMark := false }) s
  let s := (s.disp.regions.map (·.id)).foldl settle s
  let reqs := (s.disp.requests.filter fun q => !q.waiting).map (·.id)
  let s := reqs.foldl lossCheck s
  match s.boot.dirWait with
  | some h => postCompletion { s with boot := { s.boot with dirWait := none } } h .badCommand 0x20 0x14
  | none => s

/-- A write that is not durable after 3 retries loses its channel (R60, R441). -/
def loseChannel (s : State) : State := loseStore (logEv s 0x1030 .action 5)

/-- The queued write that a channel serves next: by the priorities of R58, then in the order queued; none while a journal slot is to be written. -/
def ssNext (s : State) (ch : Nat) : Option (Nat × Nat × Nat × List (Nat × Word)) :=
  if jrnHolds s ch then none else minBy (ssRank s) (s.memc.ssq.filter fun e => e.1 == ch)

/-- How often a queued write has failed so far (R60). -/
def ssTries (s : State) (e : Nat × Nat × Nat × List (Nat × Word)) : Nat :=
  match s.memc.ssFails.find? fun x => x.1 == e.1 && x.2.1 == e.2.1 && x.2.2.1 == e.2.2.1 with
  | some x => x.2.2.2
  | none => 0

/-- The failures so far of a queued write; 0 forgets it. -/
def setTries (s : State) (e : Nat × Nat × Nat × List (Nat × Word)) (n : Nat) : State :=
  let rest := s.memc.ssFails.filter fun x => !(x.1 == e.1 && x.2.1 == e.2.1 && x.2.2.1 == e.2.2.1)
  { s with memc := { s.memc with ssFails := if n = 0 then rest else rest ++ [(e.1, e.2.1, e.2.2.1, n)] } }

/-- The directory is durable: the completion of a persisted swap is posted (R418). -/
def dirDurable (s : State) : State :=
  match s.boot.dirWait with
  | some h => postCompletion { s with boot := { s.boot with dirWait := none } } h .ok
  | none => s

/-- A queued write of a channel ends, by the priorities of R58; after 3 retries of one write that fail its channel is lost (R60, R441) (DESIGN CHOICE, log entry 29). In DOZE the interface has no clock, and writes wait (Table 12.6). -/
def execStateStoreWriteDone (ch : Fin 4) (good : Bool) (s : State) : Out :=
  if dozing s then ok s else
  match ssNext s ch.val with
  | none => ok s
  | some e =>
    if !good then
      let n := ssTries s e
      if 3 ≤ n then ok (loseChannel s) else ok (setTries s e (n + 1))
    else
      let s := ssApply s e.2.2.2
      let s := setTries { s.useXspi with memc := { s.memc with ssq := s.memc.ssq.erase e } } e 0
      let tag := e.2.2.1
      if ssWaits s e.2.1 tag then ok s else
      if e.2.1 = 2 then
        match s.region tag with
        | some r => if r.tgtDur then ok (spliceDurable s tag) else ok (targetDurable s tag)
        | none => ok s
      else if e.2.1 = 3 then ok (closeDurable s tag)
      else if e.2.1 = 4 ∧ tag = 0 then ok (dirDurable s) else ok s

end Sys2Proof.Machine
end

