-- ==== Sys2Proof/Machine/StartRows.lean ====
section
/-! DEFINITION. The commands of starts (Chapter 15): RESET_N, the start of the main domain, waymarks, main power, retries, the failure memory, and MAIN_PG. -/
namespace Sys2Proof.Machine
open Sys2Proof

/-- RESET_N low for 1 µs or more: stop and journal, and the main domain stays in reset until release (R401, R458). -/
def execResetNAsserted (s : State) : Out :=
  if !s.boot.resetN ∨ !s.boot.vstby then ok s else
  ok (stopAndJournal { s with boot := { s.boot with resetN := false, safeTry := 0 } } 2)

/-- RESET_N rises (R401). -/
def execResetNReleased (s : State) : Out := ok { s with boot := { s.boot with resetN := true } }

/-- Whether the warm path holds for a start of the cause at hand (R402). -/
def warmPath (s : State) : Bool :=
  let c := s.boot.cause
  (c == 3 || c == 5 || c == 7 || c == 10) && dirFlag s 2 && !s.boot.marked && dirFlag s 4 && (c != 10 || (dirFlag s 3 && s.power.slept))

/-- A start of the main domain begins: path, waymark log, device time base at 0, EV-0x9001 with cause and path, EV-0x7052 with the commands outstanding at the stop, and the first waymark (R356, R400 to R403, R445). A cold start clears the pipes' history (R435). LASTORD tells of orders since the start, or of one kept (R399). It waits for the end of a VIN-fail. After VSTBY became valid the device stays in OFF until WM01 has passed (R347). -/
def execMainDomainStart (s : State) : Out :=
  if !s.boot.inReset ∨ !s.boot.resetN ∨ !s.boot.vstby ∨ s.power.vinf then ok s else
  let warm := warmPath s
  let cause := s.boot.cause
  let wake := if cause = 10 then (match s.power.wakePend.head? with | some b => b.val | none => 0xFF) else 0xFF
  let s := { s with
    time := 0
    power := { s.power with inTrans := true, coolWait := false, wakeHeld := false, wakePend := [] }
    side := { s.side with lastOrd := if s.power.kept.isSome then s.side.lastOrd else 0 }
    ve := if warm then s.ve else { s.ve with active := List.range 32, retired := [], errs := [] }
    boot := { s.boot with warm := warm, logCause := cause, portPath := List.replicate 64 0, inReset := false, mainOn := s.boot.pwrEn && s.boot.mainPg, outcome := .running, starts := s.boot.starts + 1, startTk := s.aon.tick, durTk := 0,
                          recs := List.replicate 23 WmRec.reset, tries := List.replicate 23 0,
                          meth := (List.range 23).map fun n => let m := dirMem s n; 4 * m.1 + m.2 } }
  let s := if warm then s else (List.range 34).foldl (fun s p => s.regSet (Reg.RAS_PIPEERR + p) 0) s
  let s := s.regSet Reg.SYS_RSTCAUSE cause
  let s := logEv s 0x9001 .note 0 0xFF [cause, b2n warm]
  let s := if cause = 1 then s else logEv s 0x7052 .note 1 0xFF [s.boot.sumOut % 65536, s.boot.sumOut / 65536]
  ok (if cause = 1 then wmBegin s 0 else wmBegin (startRun s wake) 1)

/-- A waymark's method ends (R404): it passes where the model's own look agrees, with the units named skipped, or fails. Of WM14 to WM17, one port ends it or, with none named, every port that runs it (R403); a port that fails WM16 runs its second method, and ends it at a further row (R404). The end of WM14 stands for the moment at which its ports are ACTIVE or 50 ms have passed (R301) (DEDUCED, log entry 42). -/
def execWaymarkEnd (wm : Fin 23) (pass : Bool) (units : WmUnits) (s : State) : Out :=
  let n := wm.val
  let unit := units.port
  let failed := units.failed
  if (s.wmRec n).result ≠ 5 then ok s else
  if n = 22 then ok (wmPass s n []) else
  let ps := match unit with | some p => (portsAt s n).filter (· == p.val) | none => portsAt s n
  if n = 16 ∧ (pass ∨ unit.isSome) then
    let bad := if pass then ps.filter (failed.contains ·) else ps
    let good := ps.filter (!bad.contains ·)
    let s := if good = [] ∧ (bad ≠ [] ∨ unit.isSome) then s else wmPortsPass s 16 [] good
    ok (recordsFail s bad)
  else
  if perPort n ∧ (pass ∨ unit.isSome) ∧ (n ≠ 17 ∨ wmLook s 17 [] = .pass) then
    ok (if unit.isSome ∧ ps = [] then s else wmPortsPass s n (if pass then failed else ps) ps) else
  let s := if n = 10 ∧ pass then (checkPlan s (planOf s).1).2 else s
  if !pass then ok (wmFail s n 0) else
  if n = 4 ∧ 85 * 16 ≤ toSigned 16 (s.reg Reg.PM_TMAX) then ok (abandonHot s) else
  match wmLook s n failed with
  | .wait => ok s
  | .fail d => ok (wmFail s n d)
  | .pass => ok (wmPass s n failed)

/-- A timeout counts as a failure (R403). -/
def execWaymarkTimeout (wm : Fin 23) (s : State) : Out :=
  if (s.wmRec wm.val).result ≠ 5 ∨ wm = 22 then ok s else ok (wmFail s wm.val 0)

/-- SAFE-AON tries a cold start every 600 s, SAFE-DRIVE a warm start every 60 s, 3 times each (Table 15.3) (DEDUCED, log entry 43). -/
def execSafeRetryTimer (s : State) : Out :=
  if 3 ≤ s.boot.safeTry then ok s else
  let t := { s with boot := { s.boot with safeTry := s.boot.safeTry + 1 } }
  match s.boot.outcome with
  | .safeAon => ok (stopAndJournal t 6)
  | .safeDrive => ok (stopAndJournal t 5)
  | _ => ok s

/-- MAIN_PG rises with every supply in range (R451). -/
def execMainPgRise (s : State) : Out :=
  if !s.boot.pwrEn then ok s else ok { s with boot := { s.boot with mainPg := true, mainOn := !s.boot.inReset } }

/-- MAIN_PG falls while PWR_EN is high: a VIN-fail at once (R453). -/
def execMainPgFall (s : State) : Out :=
  if !s.boot.mainPg then ok s else
  let s := { s with boot := { s.boot with mainPg := false, hiZ := if s.boot.hiZ = 0 then 0 else 10000 } }
  if s.boot.pwrEn then ok (vinFail s 2 (s.regF Reg.RL_VIN 8 0)) else ok s

/-- SYS_WMCTL.CLR: every failure memory at its first method; image A and copy A are tried first again (R405) (DEDUCED, log entry 43). -/
def clearWaymarkMemory (s : State) : State :=
  let s := { s with boot := { s.boot with meth := List.replicate 23 0 } }
  writeDir s false fun ws => clearMem (List.range 23) (setFlag 0 false (setFlag 1 false ws))

def execWaymarkMemoryClear (s : State) : Out := ok (clearWaymarkMemory s)

/-- VSTBY becomes valid: AOC SRAM is cleared, the straps are sampled, the AON powers up, and the device is about to start by the cold path, still in OFF until WM00 and WM01 have passed (R347, R388, R400, R466). -/
def powerUp (s : State) (straps : BitVec 2) : State :=
  let z := State.reset
  { z with
    pending := s.pending, hostMem := s.hostMem
    mem := wmapClear (wmapClear s.mem 0 0x804000000) 0x900000000 0x900FF8000
    poison := s.poison.filter fun k => 0xA00000000 ≤ k
    power := { z.power with st := .off, clkWf := false, clkXspi := false }
    boot := { z.boot with hiZ := 10000, pwrEn := false, mainPg := false, mainOn := false, inReset := true, cached := s.boot.cached, oldSets := s.boot.oldSets, resetN := s.boot.resetN }
    side := { z.side with strap := straps }
    sec := { z.sec with svnUp := s.sec.svnUp, revoked := s.sec.revoked }
    freeCtr := s.freeCtr }

/-- VSTBY_VALID: from OFF, or before the first start since the reset state, which is that very moment (DEDUCED, log entry 6). -/
def execVstbyValid (straps : BitVec 2) (s : State) : Out :=
  if !s.boot.vstby ∨ s.boot.starts = 0 then ok (powerUp s straps) else ok s

/-- VSTBY is removed: OFF, with no journal; everything but the state store and the fuses is lost (R51, R453). -/
def execVstbyRemoved (s : State) : Out :=
  let t := powerUp s s.side.strap
  ok { t with boot := { t.boot with inReset := false, vstby := false }, cores := t.cores.map fun (k : Core) => { k with running := false } }

end Sys2Proof.Machine
end

