-- ==== Sys2Proof/Machine/SecRows.lean ====
section
/-! DEFINITION. SYS_RST, the user calibration layer (R419 to R423) and the security block (R426). -/
namespace Sys2Proof.Machine
open Sys2Proof

/-- A write of SYS_RST by a core: ring 0 alone may; another ring is refused with a late bus error (R223, R265, R425). -/
def resetByCore (s : State) (c cause : Nat) : State :=
  let k := s.core c
  if !coreRuns s c then s
  else if k.ring ≠ 0 then queueLate s c 0xD (0xF00000000 + Reg.SYS_RST)
  else stopAndJournal { s with boot := { s.boot with safeTry := 0 } } cause

/-- SYS_RST.WARM: cause 0x5. -/
def execSysRstWarm (c : CoreId) (s : State) : Out := ok (resetByCore s c.val 5)

/-- SYS_RST.COLD: cause 0x6, by the cold path. -/
def execSysRstCold (c : CoreId) (s : State) : Out := ok (resetByCore s c.val 6)

/-! The user calibration layer -/

/-- SYS_STAT.IDLE: the dispatcher idle, no user-layer write in progress and no swap in progress (R425). -/
def sysIdle (s : State) : Bool := dspIdle s && !ssWaits s 5 1 && s.boot.swapWait.isNone && s.boot.dirWait.isNone

/-- SYS_CALCTRL.SAVE: the user values in effect are written (R423). -/
def saveCalibration (s : State) : State := if sysIdle s then writeLayer s else rejectChange s 0

def execCalibrationSave (s : State) : Out := ok (saveCalibration s)

/-- The trim class of every pixel of a port's slate, as its layers give it now (R423). -/
def retrimSlate (s : State) (p : Nat) (openToo : Bool) : State :=
  match (s.port p).slate with
  | none => s
  | some sl => (rectPixels ⟨0, 0, sl.width, sl.height⟩).foldl (fun s q =>
      let w := s.pixel p q.1 q.2
      if psOpen w ∧ ¬ openToo then s else s.setPixel p q.1 q.2 (setBitsN w 13 10 (trimAt sl q.1 q.2))) s

/-- A port's slate returns to factory values: no offset, no overlay, its set resident again from its cached record (R423). -/
def factorySlate (s : State) (p : Nat) : State :=
  let s := s.regSet (Reg.SYS_TOFS + p) 0
  let s := { s with boot := { s.boot with layers := s.boot.layers.set p Layer.empty } }
  if (s.port p).slate.isNone then s else
  let s := retrimSlate (s.updSlate p fun sl => { sl with overlay := [] }) p true
  match s.boot.cached.getD p none, s.setOf p with
  | some c, some r => makeResident (keepSets s p r) p ⟨c.2.1, []⟩
  | _, _ => s

/-- SYS_CALCTRL.FACTORY: trims, offsets and gain at their factory values, and a user layer with no entries written; SYS_CALVER then reads 0, the factory's (R423, Table 15.11). -/
def factoryCalibration (s : State) : State :=
  if !sysIdle s then rejectChange s 0 else
  let s := (List.range 8).foldl (fun s co => applyTrims ((s.regSet (Reg.RL_CO_UTRIM1 + 16 * co) 0).regSet (Reg.RL_CO_UTRIM2 + 16 * co) 0) co) s
  let s := (List.range 64).foldl factorySlate (s.regSet Reg.SYS_LGAIN 0x100)
  let s := writeLayer s
  logEv { s with boot := { s.boot with calGen := 0 } } 0xF013 .note 0

def execCalibrationFactory (s : State) : Out := ok (factoryCalibration s)

/-! The security block -/

/-- SEC_CMD: a command starts unless one is running (R426). -/
def secStart (s : State) (op : BitVec 4) : State := if s.sec.busy then s else { s with sec := { s.sec with busy := true, op := op } }

def execSha256 (s : State) : Out := ok (secStart s 1)
def execSha384 (s : State) : Out := ok (secStart s 2)
def execVerifyP256 (s : State) : Out := ok (secStart s 3)
def execVerifyP384 (s : State) : Out := ok (secStart s 4)

/-- The message of SEC_LEN bytes at SEC_SRC, streamed as R409 gives. -/
def secMessage (s : State) : List Byte :=
  let n := s.reg Reg.SEC_LEN 2
  (bytesOfWords (memReads s (s.regF Reg.SEC_SRC 35 0 3) (divCeil n 2))).take n

/-- A key, then r and s, at SEC_DST, n bytes each part. -/
def secKey (s : State) (n : Nat) : List Byte × List Byte :=
  let bs := bytesOfWords (memReads s (s.regF Reg.SEC_DST 35 0 3) (2 * n))
  (bs.take (2 * n), bs.drop (2 * n))

/-- The engine finishes: a digest is written at SEC_DST, or PASS tells what the verify found; the P-256 verify hashes with SHA-256, the P-384 verify with SHA-384 (DEDUCED from R308 and R410) (PRESUMED, log entry 21). -/
def execSecCommandDone (s : State) : Out :=
  if !s.sec.busy then ok s else
  let dst := s.regF Reg.SEC_DST 35 0 3
  let m := secMessage s
  let t := { s with sec := { s.sec with busy := false } }
  match s.sec.op.toNat with
  | 1 => ok (memWrites t dst (wordsOfBytes (sha256 m)))
  | 2 => ok (memWrites t dst (wordsOfBytes (sha384 m)))
  | 3 => let k := secKey s 32; ok { t with sec := { t.sec with pass := p256.verifyBytes k.1 k.2 (sha256 m) } }
  | _ => let k := secKey s 48; ok { t with sec := { t.sec with pass := p384.verifyBytes k.1 k.2 (sha384 m) } }

/-- SEC_REVOKE: the slot's revoke fuse is blown unless that leaves no usable slot of its kind (R426). -/
def revokeKey (s : State) (k : Nat) : State :=
  if ((usableKeys s (4 ≤ k)).filter (· != k)).isEmpty then s
  else { s with sec := { s.sec with revoked := s.sec.revoked ||| BitVec.ofNat 8 (2 ^ k) } }

def execKeyRevoke (slot : Fin 8) (s : State) : Out := ok (revokeKey s slot.val)

/-- A read of SEC_RNG's low word takes a new value from the random source (R426) (DESIGN CHOICE, log entry 9), and captures it for a read of the high word (R8). -/
def drawRandom (s : State) : State :=
  let v := Config.random s.freeCtr
  { s with
    sec := { s.sec with rng := v }
    regs := { s.regs with cap := wmapSet s.regs.cap (Reg.SEC_RNG + 1) (v.extractLsb' 16 16) (regReset (Reg.SEC_RNG + 1)) }
    freeCtr := s.freeCtr + 1 }

def execRngRead (s : State) : Out := ok (drawRandom s)

end Sys2Proof.Machine
end

