-- ==== Sys2Proof/Machine/RasRows.lean ====
section
/-! DEFINITION. The commands of the memories' error handling (R41 to R49) and of the RAS block (Chapter 16). -/
namespace Sys2Proof.Machine
open Sys2Proof

/-! Memories -/

/-- Entries of a list of (unit, tick) of one unit in the last 24 h. -/
def recent (s : State) (l : List (Nat × Nat)) (u : Nat) : Nat := (l.filter fun e => e.1 == u && decide (s.aon.tick.toNat < e.2 + dayTicks)).length

/-- One more error of a unit; entries older than 24 h leave the list. -/
def addRecent (s : State) (l : List (Nat × Nat)) (u : Nat) : List (Nat × Nat) := (l.filter fun e => decide (s.aon.tick.toNat < e.2 + dayTicks)) ++ [(u, s.aon.tick.toNat)]

/-- A pseudo-channel meets a condition of R42 while the device runs: the first is retired and its contents migrate, its fold-back range is lost at once (R44); a second stays in service. -/
def retirePc (s : State) (p : Nat) : State :=
  match s.memc.retiredPc with
  | some q => if q.val = p then s else logEv s 0x1021 .action 5
  | none =>
    match (List.finRange 64).find? (·.val == p) with
    | some f =>
      let s := logEv { s with memc := { s.memc with retiredPc := some f, migrating := true } } 0x1020 .degraded 5
      clearRange s 0x3F0000000 0x400000000
    | none => s

/-- A bank meets a condition of R49: its copy into a spare begins, or waits for the copy in progress; with no spare left it stays in service. A bank that a spare already serves is left to it (DESIGN CHOICE, log entry 49). -/
def failBank (s : State) (b : Nat) : State :=
  let m := s.memc
  if m.spares.contains (some b) ∨ m.copying = some b ∨ m.copyWait.contains b then s
  else if (m.spares.filter (·.isNone)).length ≤ m.copyWait.length + b2n m.copying.isSome then logEv s 0x1011 .degraded 5
  else match m.copying with
    | none => { s with memc := { s.memc with copying := some b } }
    | some _ => { s with memc := { s.memc with copyWait := m.copyWait ++ [b] } }

/-- EV-0x1001 where a count crosses half its limit. -/
def halfLimit (s : State) (n limit unit : Nat) : State := if limit ≠ 0 ∧ n = limit / 2 + 1 then logEv s 0x1001 .note 5 else s

/-- A corrected error is counted and written back; an uncorrectable one poisons its unit, EV-0x1002 (R41, R48). -/
def memError (s : State) (e : MemError) (blk : Nat) : State :=
  let a := e.addr.toNat
  if e.corrected then s.regSatInc Reg.MEM_CE_COUNT
  else logEv (poisonAt (s.regSatInc Reg.MEM_UE_COUNT) a) 0x1002 .action blk

/-- One defect that the patrol scrubber meets in HBM. -/
def hbmError (s : State) (e : MemError) : State :=
  let a := e.addr.toNat
  if 0x400000000 ≤ a ∨ spaceOf s a = .unmapped then s else
  let p := pcOf s a
  let s := memError s e 5
  if e.corrected then
    let s := { s with memc := { s.memc with cePc := addRecent s s.memc.cePc p } }
    let limit := 16 * s.regF Reg.MEM_CE_LIMIT 15 8
    let n := recent s s.memc.cePc p
    let s := halfLimit s n limit p
    if limit ≠ 0 ∧ limit < n then retirePc s p else s
  else
    let s := { s with memc := { s.memc with uePc := addRecent s s.memc.uePc p } }
    if 2 ≤ recent s s.memc.uePc p then retirePc s p else s

/-- One defect that the scrubber meets in the vector store. -/
def vsError (s : State) (e : MemError) : State :=
  let a := e.addr.toNat
  if a < 0x800000000 ∨ 0x804000000 ≤ a then s else
  let b := bankOf a
  let s := memError s e 5
  if e.corrected then
    let s := { s with memc := { s.memc with ceBank := addRecent s s.memc.ceBank b } }
    let limit := s.regF Reg.MEM_CE_LIMIT 7 0
    let n := recent s s.memc.ceBank b
    let s := halfLimit s n limit b
    if limit ≠ 0 ∧ limit < n then failBank s b else s
  else failBank s b

/-- One pass of the patrol scrubber with the defects it meets; HBM_HOURS = 0 stops patrol (R41). -/
def execHbmPatrol (found : List MemError) (s : State) : Out := if s.regF Reg.MEM_SCRUB 15 8 = 0 then ok s else ok (found.foldl hbmError s)

/-- One pass of the vector-store scrubber; VS_SEC = 0 stops it (R48). -/
def execVsScrub (found : List MemError) (s : State) : Out := if s.regF Reg.MEM_SCRUB 7 0 = 0 then ok s else ok (found.foldl vsError s)

/-- The last granule is copied: those that could not be read are poisoned at their new locations (R44). -/
def execMigrationDone (unreadable : List Addr) (s : State) : Out :=
  if !s.memc.migrating then ok s else
  let s := (unreadable.filter (·.toNat < 0x3F0000000)).foldl (fun s a => memError s ⟨a, false⟩ 5) s
  ok { s with memc := { s.memc with migrating := false } }

/-- The copy of a bank ends and accesses switch to its spare; the next bank in order follows (R49, R432). -/
def execSpareBankCopyDone (s : State) : Out :=
  match s.memc.copying with
  | none => ok s
  | some b =>
    let s := spareBank { s with memc := { s.memc with copying := none } } b
    match s.memc.copyWait with
    | [] => ok s
    | n :: rest => ok { s with memc := { s.memc with copying := some n, copyWait := rest } }

/-! Roles (R437 to R439) -/

/-- A core is retired and holds no role. -/
def retireCore (s : State) (c : Nat) : State := s.updCore c fun k => { k with running := false, retired := true, waiting := false, stalled := false, role := none }

/-- A role moves to the spare core, or is left vacant, its pending interrupts going to role 0 (R437 step 4, R438). Role 0 without a spare leads to a start of cause 0x7. -/
def moveRole (s : State) (r : Fin 16) : State :=
  match coreOfWindow s 16 with
  | some c =>
    let s := match coreOfRole s r with | some o => retireCore s o | none => s
    { releaseCore s c r with ras := { s.ras with moving := some r } }
  | none =>
    if r = 0 then stopAndJournal s 7 else
    match coreOfRole s r with
    | none => s
    | some o =>
      let s := retireCore s o
      let s := { s with intq := s.intq.map fun e => if e.role == r.val then { e with role := 0 } else e, ras := { s.ras with late := s.ras.late.set r.val false } }
      logEv s 0x3031 .degraded 10 r.val

/-- RAS_HBn is written. The first heartbeat in a core that a role has moved to ends the move: EV-0x3030 and cause 0x19 with reason 0x4; a role that waits is then moved (Table 16.5, R432). -/
def heartbeat (s : State) (n : Fin 16) : State :=
  let s := { s with ras := { s.ras with late := s.ras.late.set n.val false, hbAt := s.ras.hbAt.set n.val s.time } }
  if s.ras.moving ≠ some n then s else
  let s := logEv { s with ras := { s.ras with moving := none } } 0x3030 .masked 10 n.val
  let s := raiseRas s 4 n.val
  match s.ras.moveQ with
  | [] => s
  | r :: rest => moveRole { s with ras := { s.ras with moveQ := rest } } r

def execHeartbeat (n : Fin 16) (s : State) : Out := ok (heartbeat s n)

/-- Milliseconds since the latest heartbeat of a role (RAS_HBn.MS). -/
def silence (s : State) (n : Nat) : Nat := satTo 0x7FFF ((s.time - s.ras.hbAt.getD n 0).toNat / 100000)

/-- A role's heartbeat has been silent for its limit: it is late, and role 0 is moved at once, or after the move in progress (R437, R432). The watches do not apply in DOZE (R347), nor to a role that no released core holds (DEDUCED, log entry 44). -/
def execRoleLate (n : Fin 16) (s : State) : Out :=
  if s.power.st = .doze ∨ !s.boot.mainOn ∨ s.ras.late.getD n.val false ∨ (coreOfRole s n).all (fun c => !(s.core c).running && !(s.core c).halted) then ok s else
  let ms := silence s n.val
  let s := logEv { s with ras := { s.ras with late := s.ras.late.set n.val true } } 0x3032 .action 10 n.val [n.val, ms]
  let s := raiseInt s 0 0x19 (0x2000 + n.val) 0
  if n ≠ 0 then ok s else
  if s.ras.moving.isSome then ok { s with ras := { s.ras with moveQ := s.ras.moveQ ++ [0] } } else ok (moveRole s 0)

/-- RAS_MOVE with GO = 1: ROLE 0 is discarded; a write while a move runs is rejected (Table 16.9). -/
def orderMove (s : State) (n : Nat) : State :=
  if s.ras.moving.isSome then rejectChange s 11 else
  match (List.finRange 16).find? (·.val == n) with
  | none => s
  | some r => if r = 0 then s else moveRole s r

def execRoleMove (n : Fin 16) (s : State) : Out := ok (orderMove s n.val)

/-- RAS_HB0 has been silent for 50 ms: the AOC starts the main domain again (R439). -/
def execAocHeartbeatTimeout (s : State) : Out :=
  if s.power.st = .doze ∨ !s.boot.mainOn then ok s else ok (stopAndJournal s 7)

/-! Error queue and event log (R429 to R431) -/

/-- The word of a control core's local memory (BLOCK CCX, UNIT the core) or of the AOC SRAM (BLOCK 0xFF) that a detector names by its offset in ARG0 (DESIGN CHOICE, log entry 49). -/
def localFaultKey (blk unit off : Nat) : Option Nat :=
  if blk = 10 ∧ unit < 17 then some (localKey unit off) else if blk = 0xFF ∧ off < 0x8000 then some (0x900FF0000 + off) else none

/-- What the hardware does at an error of a local memory or the AOC SRAM, taken whether or not its report is queued (R50, R431): a corrected one (EV-0x1001) is written back and counted, an uncorrectable one (EV-0x1002) leaves the word unreadable and is counted (DESIGN CHOICE, log entry 49). -/
def localFault (s : State) (code blk unit off : Nat) : State :=
  match localFaultKey blk unit off with
  | none => s
  | some k => if code = 0x1001 then s.regSatInc Reg.MEM_CE_COUNT else if code = 0x1002 then poisonAt (s.regSatInc Reg.MEM_UE_COUNT) k else s

/-- The hardware action of a detected fault, taken whether or not its report is queued (R431): that of a local memory, or the loss of a state-store channel whose reads still fail after 3 retries, reported with code 0x1031 and block MEM (R441) (DESIGN CHOICE, log entry 49). -/
def faultAction (s : State) (code blk unit off : Nat) : State :=
  if code = 0x1031 ∧ blk = 5 then (if s.memc.ssLost ∨ s.ssWords = 0 then s else loseStore s) else localFault s code blk unit off

/-- A detector's report (R431) (DEDUCED, log entry 44). -/
def execErrorReport (code : Word) (sev : BitVec 3) (blk unit : Byte) (a0 a1 a2 a3 : Word) (s : State) : Out :=
  if 4 < sev.toNat then ok s else ok (reportErr (faultAction s code.toNat blk.toNat unit.toNat a0.toNat) code.toNat sev.toNat blk.toNat unit.toNat [a0.toNat, a1.toNat, a2.toNat, a3.toNat])

/-- RAS_EQPOP.POP: the head is removed; ignored on an empty queue. -/
def execErrorQueuePop (s : State) : Out := ok { s with ras := { s.ras with eq := s.ras.eq.drop 1 } }

/-- An event is logged (R429); severities 5 to 7 are never written (Table 16.1). -/
def execEventLogged (code : Word) (sev : BitVec 3) (blk unit : Byte) (a0 a1 a2 a3 : Word) (s : State) : Out :=
  if 4 < sev.toNat then ok s else ok (logRaw s code.toNat sev.toNat blk.toNat unit.toNat [a0.toNat, a1.toNat, a2.toNat, a3.toNat])

/-- The oldest queued entry is written to its place in the ring, once WM18's scan has given the queue its SEQ numbers (R430); one written over a valid entry 4096 positions older is counted (R428, R429). Its write waits for those of a higher level on its channel (R58). -/
def execEventLogWrite (s : State) : Out :=
  if s.memc.ssLost ∨ s.ssWords = 0 ∨ dozing s ∨ !wmPassed s 18 then ok s else
  match s.ras.evq with
  | [] => ok s
  | e :: rest =>
    let q := dwordAt e.words 2
    if !ssServes s 4 (0x1000 + 16 * (q % 4096)) 16 then ok s else
    let old := logEntry s q
    let s := if entryValid old && dwordAt old 2 + 4096 == q then s.regSatInc Reg.RAS_EVOVW else s
    ok { ssWrites s.useXspi (0x1000 + 16 * (q % 4096)) e.words with ras := { s.ras with evq := rest } }

/-- RAS_CTRL.EVCLR (R430): EV-0xF014 is logged and RAS_EVBASE takes its SEQ (DEDUCED, log entry 44). -/
def clearLog (s : State) : State :=
  let s := logEv s 0xF014 .note 11
  match (s.ras.evq.filter fun e => wordAt e.words 0 == 0xF014).getLast? with
  | some e => s.regSet Reg.RAS_EVBASE (dwordAt e.words 2) 2
  | none => s

def execEventLogClear (s : State) : Out := ok (clearLog s)

/-- The RAS block checks the identity of R445 for every ring. -/
def execRequestAudit (s : State) : Out := ok ((List.range 16).foldl auditRing s)

end Sys2Proof.Machine
end

