-- ==== Sys2Proof/Machine/Views.lean ====
section
/-! DEFINITION. What a read of each register returns: fields that the hardware maintains are computed from the state; every other register returns what was last written (R9, R12). -/
namespace Sys2Proof.Machine
open Sys2Proof

/-- A value from fields given as (value, lowest bit). -/
def pack (l : List (Nat × Nat)) : Nat := l.foldl (fun a x => a + (x.1 <<< x.2)) 0

/-- One bit for each number of a range that a test holds for. -/
def bitMap (n : Nat) (p : Nat → Bool) : Nat := ((List.range n).map fun i => if p i then 2 ^ i else 0).sum

/-- Bits 15 and 14 of a block's first register: IDLE and CHG_REJ (R13). -/
def statBits (s : State) (blk : Nat) (idle : Bool) : List (Nat × Nat) := [(b2n idle, 15), (s.regF (blk * 65536) 14 14, 14)]

/-- HIF_STAT.IDLE (Table 13.13). -/
def hifIdle (s : State) : Bool := s.hif.rings.all (fun r => !r.en && r.taken.isEmpty) && s.hif.dma.isEmpty

/-- WF_STAT.IDLE: no build and no slot write in progress; a set is checked within one command. -/
def wfIdle (s : State) : Bool := s.ve.builds.all (·.isNone) && s.ve.buildQ.isEmpty

/-- MEM_STAT.IDLE: no migration, no bank copy, no state-store write queued (Table 2.12). -/
def memIdle (s : State) : Bool := !s.memc.migrating && s.memc.copying.isNone && s.memc.ssq.isEmpty

/-- SL_STAT.IDLE: no training and no life write in progress. -/
def slIdle (s : State) : Bool := s.ports.all fun p => (p.st == .off || p.st == .active) && p.lifeW.isNone && p.pendingAt.isNone

/-- RL_STAT.IDLE. -/
def rlIdle (s : State) : Bool := s.courses.all fun c => c.rail != .rising && c.rail != .falling

/-- RAS_STAT.IDLE: error queue empty, no role move, no replay in progress (Table 16.9). -/
def rasIdle (s : State) : Bool := s.ras.eq.isEmpty && s.ras.moving.isNone && (s.ve.queues.all fun q => q.prog.all fun c => c.replay.isEmpty) && s.disp.drives.all (·.replay.isEmpty)

/-- Whether a block reports idle, which is what an Idle field's write needs (R13). -/
def blockIdle (s : State) (blk : Nat) : Bool :=
  match blk with
  | 0 => sysIdle s | 1 => hifIdle s | 2 => veIdle s | 3 => wfIdle s | 4 => dspIdle s | 5 => memIdle s | 6 => slIdle s
  | 7 => rlIdle s | 8 => !s.power.inTrans && !s.boot.inReset && !s.power.stopping && !s.power.tripped && !s.power.vinf && s.power.vinStep == 0 | 9 => true | 10 => true | 11 => rasIdle s | _ => !s.sec.busy

/-! The hardware-maintained registers, block by block; `none` where the stored value is what a read returns. -/

/-- Whether an image runs: WM05 of this start has passed; until then FWB and SVN are at their reset values (Table 15.11). -/
def fwRuns (s : State) : Bool := wmPassed s 5

def viewSys (s : State) (off : Nat) : Option Nat :=
  match off with
  | 0x0 => some (pack (statBits s 0 (sysIdle s) ++ [(b2n (s.boot.outcome == .ready), 13),
      ((if s.boot.outcome = .safePlan then 3 else if s.boot.outcome = .safeDrive then 4 else 0), 10), (b2n s.boot.warm, 9), (b2n s.boot.staged.isSome, 8), (s.boot.wm % 32, 0)]))
  | 0x7 => some (pack [((if s.boot.outcome = .safePlan then 3 else s.boot.planSrc % 4), 14), (b2n (fwRuns s && s.boot.fwB), 13), ((if fwRuns s then s.boot.fwSvn.toNat else 0), 0)])
  | 0x8 => some (pack [(0x6400, 16), (Config.siliconRev.toNat, 8)])
  | 0xE => some s.boot.calGen.toNat
  | _ => none

def viewHif (s : State) (off i : Nat) : Option Nat :=
  let r := s.ring i
  match off with
  | 0x0 => some (pack (statBits s 1 (hifIdle s)))
  | 0x1 => some (pack [(b2n s.hif.linkUp, 15), (s.hif.speed.toNat, 12), (s.hif.width.toNat, 8), (s.hif.aspm.toNat, 6)])
  | 0x4 => some s.time.toNat
  | 0x10C => some (b2n r.en <<< 15)
  | 0x10D => some (pack [(b2n r.err, 15), (r.errCode.toNat, 0)])
  | 0x112 => some r.sqHead
  | 0x113 => some r.cqTail
  | 0x114 => some r.out
  | _ => none

/-- RUNNING of VE_QSTATn counts a command as in progress from its fetch to its end, also before its first segment and while a flush ends it (DESIGN CHOICE, log entry 50). -/
def viewVe (s : State) (off i : Nat) : Option Nat :=
  let q := s.queue i
  match off with
  | 0x0 => some (pack (statBits s 2 (veIdle s) ++ [(s.ve.active.length, 8), ((allSpares s).length, 6)]))
  | 0x2 => some (bitMap 34 s.ve.active.contains)
  | 0x5 => some (bitMap 34 s.ve.retired.contains)
  | 0x102 => some (pack [(b2n !q.prog.isEmpty, 15), (b2n q.stopped, 14), (b2n q.paused, 13), (b2n q.flushing, 12), (q.depth, 0)])
  | _ => none

/-- The table slots that a command in progress names or a builder is writing (WF_SLOTS). -/
def busySlots (s : State) : List Nat := namedSlots s ++ buildingSlots s

/-- Words of the resident area in use: sets and the mode blocks loaded beside them (WF_RES_USED). -/
def resUsed (s : State) : Nat := (s.sets.map fun x => match x with | some r => r.words.length + (r.modes.map fun m => m.2.length).sum | none => 0).sum

def viewWf (s : State) (off i : Nat) : Option Nat :=
  let p := s.port i
  match off with
  | 0x0 => some (pack (statBits s 3 (wfIdle s) ++ [(b2n (s.ve.builds.getD 0 none).isSome, 13), (b2n (s.ve.builds.getD 1 none).isSome, 12),
      ((s.sets.filter (·.isSome)).length, 0)]))
  | 0x4 => some (bitMap 16 (busySlots s).contains)
  | 0x10 => some (resUsed s)
  | 0x40 => some (pack [(b2n (setValid s i), 15), (b2n p.staleT, 14), ((p.set.getD 0) % 64, 8), (p.tb % 16, 4), (p.ab % 4, 2)])
  | _ => none

def viewDsp (s : State) (off i : Nat) : Option Nat :=
  let c := s.course i
  match off with
  | 0x0 => some (pack (statBits s 4 (dspIdle s) ++ [(b2n s.side.blank, 13), (b2n s.disp.yielding, 12), ((s.disp.regions.filter (·.isOpen)).length, 0)]))
  | 0x8 => some (report32 s.disp.ebucket)
  | 0xA => some (report32 s.disp.hbucket)
  | 0xC => some s.disp.issued.toNat
  | 0x10 => some s.disp.held.toNat
  | 0x14 => some s.disp.spent.toNat
  | 0x19 => some (s.disp.requests.filter (·.waiting)).length
  | 0x40 => some (pack [(b2n c.holdOff, 15), (b2n (courseOneLane s i), 14), (rateShown s i, 7)])
  | 0x42 => some (report32 c.railb)
  | 0x44 => some (satTo 0xFFFF (meanStretch c))
  | _ => none

def viewMem (s : State) (off i : Nat) : Option Nat :=
  match off with
  | 0x0 => some (pack (statBits s 5 (memIdle s) ++ [(b2n s.memc.migrating, 13), (b2n s.memc.copying.isSome, 12), (b2n s.memc.ssReady, 11),
      (b2n s.memc.hbmReady, 10), (b2n s.memc.vsReady, 9), ((s.memc.spares.filter (·.isNone)).length, 0)]))
  | 0x2 => some (match s.memc.retiredPc with | some p => pack [(1, 15), (b2n s.memc.migrating, 14), (p.val, 0)] | none => 0)
  | 0x10 => some (match s.memc.spares.getD i none with | some b => 32768 + b % 1024 | none => 0)
  | _ => none

/-- Seconds since a port's latest valid temperature (SL_TAGEn); all ones before the first. -/
def tempAge (s : State) (p : Nat) : Nat :=
  let t := s.port p
  if t.tempSeen then satTo 0xFFFF ((s.time - t.tempAt).toNat / 100000000) else 0xFFFF

def PortState.code : PortState → Nat
  | .off => 0 | .detect => 1 | .align => 2 | .config => 3 | .active => 4 | .retrain => 5

def viewSl (s : State) (off i : Nat) : Option Nat :=
  let t := s.port i
  match off with
  | 0x0 => some (pack (statBits s 6 (slIdle s) ++ [((s.ports.filter (·.st == .active)).length, 0)]))
  | 0x4 => some (bitMap 64 fun p => (s.port p).st == .active)
  | 0x8 => some (bitMap 64 fun p => (s.port p).oneLaneNow)
  | 0x100 => some (pack [(t.st.code, 13), (b2n t.d0, 12), (b2n t.d1, 11), (b2n t.u, 10), (b2n t.oneLaneNow, 9), (b2n t.drivable, 8),
      (b2n t.lifeWarn, 7), (b2n t.expired, 6), (b2n t.frame.isSome, 5)])
  | 0x103 => some t.buf
  | 0x104 => some t.next.toNat
  | 0x105 => some t.acked.toNat
  | 0x106 => some t.done.toNat
  | 0x107 => some t.limit.toNat
  | 0x10A => some (tempAge s i)
  | _ => none

def RailState.code : RailState → Nat
  | .off => 0 | .rising => 1 | .up => 2 | .falling => 3 | .fault => 4

def viewRl (s : State) (off i : Nat) : Option Nat :=
  let c := s.course i
  match off with
  | 0x0 => some (pack (statBits s 7 (rlIdle s) ++ [(b2n s.power.vinf, 13), (s.regF Reg.RL_STAT 12 12, 12), (bitMap 8 fun n => (s.course n).rail == .up, 0)]))
  | 0x40 => some (pack [(c.rail.code, 13), (b2n (courseKnown s i), 12), (b2n c.flEn, 11), (b2n (courseCracked s i), 10), (b2n c.dozeUp, 9)])
  | _ => none

def viewPm (s : State) (off : Nat) : Option Nat :=
  match off with
  | 0x0 => some (pack (statBits s 8 (blockIdle s 8) ++ [(s.power.st.code, 11), (b2n s.power.throttle, 10), (b2n s.power.stopping, 9), (b2n (s.power.kept.isSome || s.side.keptReset.isSome), 8)]))
  | _ => none

def viewAon (s : State) (off : Nat) : Option Nat :=
  match off with
  | 0x0 => some (pack (statBits s 9 true ++ [(b2n s.aon.xtalF, 13), (s.regF Reg.AON_STAT 12 11, 11), (s.aon.fifo.length, 0)]))
  | 0x1 => some (s.reg Reg.AON_WAKEEN ||| 3)
  | 0x4 => some s.aon.tick.toNat
  | 0x15 => some (s.aon.fifo.headD 0).toNat
  | _ => none

def viewCcx (s : State) (off i : Nat) : Option Nat :=
  let k := s.core i
  let act := ((s.cores.take 17).filter fun x => x.role.isSome && !x.retired && (x.running || x.halted)).length
  match off with
  | 0x0 => some (pack (statBits s 10 true ++ [(b2n ((s.cores.take 17).any (fun x => x.role.isNone && !x.retired) && act != 0), 13), (act, 0)]))
  | 0x10 => some (pack [(b2n k.retired, 15), (b2n (k.running && !k.halted), 14), (b2n k.halted, 13), (match k.role with | some r => r.val | none => 31, 0)])
  | _ => none

def viewRas (s : State) (off i : Nat) : Option Nat :=
  match off with
  | 0x0 => some (pack (statBits s 11 (rasIdle s) ++ [(b2n s.ras.moving.isSome, 13), (b2n (s.ras.late.getD 0 false), 12), (s.ras.eq.length, 0)]))
  | 0x10 => some (natOfWords (s.ras.eq.headD []))
  | 0x40 => some (pack [(b2n (s.ras.late.getD i false), 15), (silence s i, 0)])
  | 0x80 => some (pack [(s.regF (Reg.RAS_PIPEERR + i) 15 15, 15), (satTo 15 (pipeE24 s i), 8), (s.regF (Reg.RAS_PIPEERR + i) 7 0, 0)])
  | 0x100 => some (s.ring i).acc.toNat
  | 0x102 => some (s.ring i).cpl.toNat
  | 0x104 => some (s.ring i).lost.toNat
  | _ => none

def viewSec (s : State) (off : Nat) : Option Nat :=
  match off with
  | 0x0 => some (pack (statBits s 12 (!s.sec.busy) ++ [(b2n s.sec.busy, 13), (b2n s.sec.pass, 12), (svnMin s, 0)]))
  | 0x1 => some (pack [(revokedKeys s, 8), (Config.fusedKeys.toNat, 0)])
  | 0x10 => some s.sec.rng.toNat
  | _ => none

/-- The hardware-maintained value of register i of the family at a block and offset. -/
def viewOf (s : State) (blk off i : Nat) : Option Nat :=
  match blk with
  | 0 => viewSys s off | 1 => viewHif s off i | 2 => viewVe s off i | 3 => viewWf s off i | 4 => viewDsp s off i | 5 => viewMem s off i
  | 6 => viewSl s off i | 7 => viewRl s off i | 8 => viewPm s off | 9 => viewAon s off | 10 => viewCcx s off i | 11 => viewRas s off i
  | 12 => viewSec s off | _ => none

/-- The bits of a register that hold a field a read returns: write-only and reserved bits read 0 (R9, R11). -/
def RegFam.readMask (f : RegFam) : Nat := f.fields.foldl (fun a x => if x.acc = .wo then a else a + ((2 ^ (x.hi + 1 - x.lo) - 1) <<< x.lo)) 0

/-- The key of the lowest word of register i of a family. -/
def RegFam.key (f : RegFam) (i : Nat) : Nat := f.blk * 65536 + f.off + f.stride * i

/-- The whole value that a register reads as. -/
def regLive (s : State) (f : RegFam) (i : Nat) : Nat :=
  match viewOf s f.blk f.off i with
  | some v => v % 2 ^ (16 * f.words)
  | none => s.reg (f.key i) f.words &&& f.readMask

end Sys2Proof.Machine
end

