-- ==== Sys2Proof/Machine/RegAccess.lean ====
section
/-! DEFINITION. Reads and writes of register words: multi-word registers (R8), access codes (R9 to R11), change classes (R12, R13), the actions that writes trigger, and who may reach what (R98 to R100, R223, R265, R366, R367). -/
namespace Sys2Proof.Machine
open Sys2Proof

/-- The bits of a register that its fields of some kind hold. -/
def RegFam.bits (f : RegFam) (p : Field → Bool) : Nat := f.fields.foldl (fun a x => if p x then a + ((2 ^ (x.hi + 1 - x.lo) - 1) <<< x.lo) else a) 0

/-- Whether a key lies in the fixed pattern slots 0 to 15 (Table 3.13). -/
def isFixedPattern (key : Nat) : Bool := 0x24000 ≤ key && key < 0x24100

/-! Reads -/

/-- A read of word w of register i of a family: the lowest word captures the whole value for reads of the higher words (R8). -/
def readWord (s : State) (f : RegFam) (i w : Nat) : Word × State :=
  let k := f.key i
  if f.words = 1 then (wd (regLive s f i), s)
  else if w = 0 then
    let v := regLive s f i
    (wd v, { s with regs := { s.regs with cap := (List.range (f.words - 1)).foldl (fun m j => wmapSet m (k + j + 1) (wd (v >>> (16 * (j + 1)))) (regReset (k + j + 1))) s.regs.cap } })
  else (wmapGet s.regs.cap (k + w) (regReset (k + w)), s)

/-- A read of the register word at a key; a reserved offset reads 0 (R223). PM_PIN is measured, and each read of SEC_RNG's low word draws a new value (R426) (DEDUCED, log entry 20). -/
def readKey (s : State) (key : Nat) : Word × State :=
  if isFixedPattern key then ((fixedPattern ((key - 0x24000) / 16)).getD (key % 16) 0, s) else
  match findReg key with
  | none => (0, s)
  | some (f, i, w) =>
    if key = Reg.PM_PIN then let (v, s) := s.free; (v.setWidth 16, s)
    else readWord (if key = Reg.SEC_RNG then drawRandom s else s) f i w

/-- A core's read, in which AON_KEYFIFO gives up its oldest entry (R362) (DEDUCED, log entry 20). -/
def readKeyCore (s : State) (key : Nat) : Word × State := if key = Reg.AON_KEYFIFO then keyPop s else readKey s key

/-! Writes -/

/-- Registers whose write is an action on the value as a whole, by block, offset and index; none for the others (DEDUCED, log entry 19). -/
def writeAction (s : State) (blk off i v : Nat) : Option State :=
  match blk, off with
  | 0, 0x2 => some (if bitN v 14 then stopAndJournal { s with boot := { s.boot with safeTry := 0 } } 6
      else if bitN v 15 then stopAndJournal { s with boot := { s.boot with safeTry := 0 } } 5 else s)
  | 0, 0x3 => some (if bitN v 15 then clearWaymarkMemory s else s)
  | 0, 0x4 => some (if !sysIdle s then rejectChange s 0 else if bitN v 14 then factoryCalibration s else if bitN v 15 then saveCalibration s else s)
  | 1, 0x10C => some (if bitN v 15 then ringEnable s i else ringDisable s i)
  | 1, 0x110 => some (tailDoorbell s i (v % 4096))
  | 1, 0x111 => some (headDoorbell s i (v % 4096))
  | 2, 0x103 =>
    let s := if bitN v 15 then flushQueue s i else s
    let s := if bitN v 14 then restartQueue s i else s
    some (pauseQueue s i (bitN v 13))
  | 6, 0x101 =>
    let s := if bitN v 15 then retrain s i else s
    some (if bitN v 14 then writeLife s i none else s)
  | 7, 0x1 => some ((List.range 8).foldl (fun s co => if bitN v (8 + co) then requestOff s co false else if bitN v co then requestOn s co else s) s)
  | 7, 0x8 => some ((List.range 64).foldl (fun s p => if bitN v p then clearCrack s p else s) s)
  | 7, 0xC => some ((List.range 64).foldl (fun s p => maskLoop s p (bitN v p)) s)
  | 9, 0x8 => some (writeCal s (wd v).toNat (wd (v >>> 16)).toNat (wd (v >>> 32)).toNat (wd (v >>> 48)).toNat)
  | 11, 0x2 => some (if s.ras.moving.isSome then rejectChange s 11 else if bitN v 15 then orderMove s (v % 32) else s)
  | 11, 0x4 => some (if bitN v 15 then clearLog s else s)
  | 11, 0x20 => some (if bitN v 15 then { s with ras := { s.ras with eq := s.ras.eq.drop 1 } } else s)
  | 11, 0x40 => some (match (List.finRange 16).find? (·.val == i) with | some n => heartbeat s n | none => s)
  | 12, 0x2 => some (if 1 ≤ bitsN v 15 12 ∧ bitsN v 15 12 ≤ 4 then secStart s (BitVec.ofNat 4 (bitsN v 15 12)) else s)
  | 12, 0x3 => some (if bitN v 15 then revokeKey s (v % 8) else s)
  | _, _ => none

/-- What follows the storing of a new value at once: a slate's offset, trims of a course at rest, and its front light. -/
def writeFollows (s : State) (blk off i : Nat) : State :=
  match blk, off with
  | 0, 0x40 => layerOffset s i
  | 7, 0x49 | 7, 0x4A => trimIdle s i
  | 7, 0x4B => lightCheck s i
  | _, _ => s

/-- Register i of a family takes a value: RW fields take it, W1C fields clear where it is 1 (R9) (DEDUCED, log entry 19). -/
def storeValue (s : State) (f : RegFam) (i v : Nat) : State :=
  let old := s.reg (f.key i) f.words
  let rw := f.bits fun x => x.acc == .rw
  let clr := v &&& f.bits fun x => x.acc == .w1c
  let kept := old - (old &&& rw)
  s.regSet (f.key i) (kept - (kept &&& clr) + (v &&& rw)) f.words

/-- The value that a write of the last word gives a register: lower words as held, or, not written since, the value in effect; in W1C fields they clear nothing (R8) (DEDUCED, log entry 19). -/
def joinWords (s : State) (f : RegFam) (i : Nat) (v : Word) : Nat :=
  let k := f.key i
  let rw := f.bits fun x => x.acc == .rw
  let low := (List.range (f.words - 1)).map fun j => match assocGet s.regs.held (k + j) with
    | some x => x
    | none => wd ((s.reg k f.words &&& rw) >>> (16 * j))
  natOfWords (low ++ [v])

/-- A write of word w of register i of a family (DEDUCED, log entry 19). -/
def writeWord (s : State) (f : RegFam) (i w : Nat) (v : Word) : State :=
  let k := f.key i
  let heart := f.blk == 11 && f.off == 0x40
  if !heart && f.fields.all (fun x => x.acc == .ro) then s
  else if f.fields.any (fun x => x.chg == .plan) then
    if f.fields.any (fun x => x.chg == .plan && decide (16 * w ≤ x.hi) && decide (x.lo < 16 * w + 16)) then rejectChange s f.blk else s
  else if w + 1 < f.words then { s with regs := { s.regs with held := assocPut s.regs.held (k + w) v } }
  else
    let x := joinWords s f i v
    let s := s.dropHeld k f.words
    match writeAction s f.blk f.off i x with
    | some t => t
    | none => writeFollows (storeValue s f i x) f.blk f.off i

/-- A write of the register word at a key; a reserved offset ignores it (R223). A pattern slot is a Plan field (R99). -/
def writeKey (s : State) (key : Nat) (v : Word) : State :=
  if isFixedPattern key then rejectChange s 2 else
  match findReg key with
  | none => s
  | some (f, i, w) => writeWord s f i w v

/-! Cores (R98, R223, R265) -/

/-- The ring that owns a descriptor (R98). -/
def descOwner (s : State) (d : Nat) : Nat :=
  let p (r : Nat) : Nat := s.regF (Reg.VE_DPART + r - 1) 11 0
  if d < p 1 then 0 else if d < p 2 then 1 else if d < p 3 then 2 else 3

/-- Whether a ring may read a block (Table 9.2). -/
def ringReads (ring blk : Nat) : Bool :=
  match blk with
  | 2 => true
  | 10 => ring ≤ 2
  | 12 => ring ≤ 1
  | 0 | 3 | 4 | 5 | 8 => true
  | _ => ring ≤ 2

/-- Whether a ring may write a word of a block (Table 9.2, R98, R265). -/
def ringWrites (s : State) (ring key : Nat) : Bool :=
  let blk := key / 65536
  let off := key % 65536
  if blk = 2 then
    if 0x8000 ≤ off then ring ≤ descOwner s ((off - 0x8000) / 8)
    else ring ≤ 1 || (0x100 ≤ off && off < 0x140 && off % 4 == 3 && ring ≤ s.qRing ((off - 0x100) / 4))
  else if blk = 10 || blk = 12 then ring == 0
  else if key = Reg.SYS_RST then ring == 0
  else ring ≤ 1

/-- The internal address of a register word. -/
def regAddr (key : Nat) : Nat := 0xF00000000 + key

/-- A core's register read; a refused one gives 0 and a late bus error (R223). -/
def coreRegRead (s : State) (c ring key : Nat) : Word × State :=
  if ringReads ring (key / 65536) then readKeyCore s key else (0, queueLate s c 0x5 (regAddr key))

/-- A core's register write; a refused one is discarded, with a late bus error (R223). -/
def coreRegWrite (s : State) (c ring key : Nat) (v : Word) : State :=
  if ringWrites s ring key then writeKey s key v else queueLate s c 0xD (regAddr key)

/-- Whether register blocks other than AON answer: the main domain is powered (DEDUCED, log entry 20). -/
def blockPowered (s : State) (blk : Nat) : Bool := s.boot.mainOn || blk == 9

/-! Host (R365 to R367, R100) -/

/-- A host write discarded: HIF_BADWR counts it, and the event carries its offset. -/
def hostBad (s : State) (code off : Nat) : State := logEv (s.regSatInc Reg.HIF_BADWR) code .note 1 0xFF [off % 65536, off / 65536 % 65536, off / 4294967296]

/-- A host write to a descriptor or a pattern slot discarded (R100): HIF_BADWR counts it (R367), and the event is the VE block's (Table 3.16). -/
def hostBadVe (s : State) : State := logEv (s.regSatInc Reg.HIF_BADWR) 0x7020 .note 2

/-- Whether a host BAR0 write reaches a register of a family, as each chapter states: HIF's writable fields, SYS_WMCTL and SYS_CALCTRL, SL_PCTRLn, RAS_AUDIT and RAS_CTRL. -/
def hostReaches (f : RegFam) : Bool :=
  match f.blk with
  | 0 => f.off == 3 || f.off == 4
  | 1 => f.fields.any fun x => x.acc != .ro
  | 6 => f.off == 0x101
  | 11 => f.off == 3 || f.off == 4
  | _ => false

/-- A write to the MSI-X table: the bytes enabled; unmasking a vector that is pending signals it (R366; PCI Express Base Specification, PRESUMED) (PRESUMED, log entry 22). -/
def msixWrite (s : State) (i : Nat) (be : BitVec 4) (v : BitVec 32) : State :=
  let old := s.hif.msix.getD i 0
  let m : BitVec 32 := BitVec.ofNat 32 (natOfBytes ((List.range 4).map fun j => if be.getLsbD j then 0xFF else 0))
  let s := { s with hif := { s.hif with msix := s.hif.msix.set i ((old &&& ~~~m) ||| (v &&& m)) } }
  let vec := i / 4
  if i % 4 = 3 ∧ s.hif.pba.getLsbD vec ∧ (s.hif.msix.getD i 0).getLsbD 0 = false then
    signalVec { s with hif := { s.hif with pba := s.hif.pba &&& ~~~(BitVec.ofNat 64 (2 ^ vec)) } } vec
  else s

/-- A host BAR0 write. One of another size, or without byte enables 0 and 1, is EV-0x7001 wherever it goes, a descriptor or a pattern slot included (R100, R366) (DESIGN CHOICE, log entry 50). -/
def hostRegWrite (s : State) (off ndw : Nat) (be : BitVec 4) (v : BitVec 32) : State :=
  if ndw ≠ 1 then hostBad s 0x7001 off
  else if 0x3F0000 ≤ off ∧ off < 0x3F0400 then msixWrite s ((off - 0x3F0000) / 4) be v
  else if be.getLsbD 0 = false ∨ be.getLsbD 1 = false then hostBad s 0x7001 off
  else if 0x340000 ≤ off then hostBad s 0x7001 off
  else
    let key := off / 0x40000 * 65536 + off % 0x40000 / 4
    if 0x24000 ≤ key ∧ key < 0x24400 ∨ 0x28000 ≤ key ∧ key < 0x30000 then hostBadVe s
    else match findReg key with
      | some (f, i, w) => if hostReaches f then writeWord s f i w (v.setWidth 16) else hostBad s 0x7001 off
      | none => hostBad s 0x7001 off

/-- A host BAR0 read of one DW: the register word in its slot, the MSI-X table and its pending bits; reserved offsets read 0 (R365, R366). SEC shows the host SEC_STAT and SEC_KEYS alone (R426) (DEDUCED, log entry 20). -/
def hostRegRead (s : State) (off : Nat) : BitVec 32 × State :=
  if 0x3F0000 ≤ off ∧ off < 0x3F0400 then (s.hif.msix.getD ((off - 0x3F0000) / 4) 0, s)
  else if 0x3F8000 ≤ off ∧ off < 0x3F8008 then (BitVec.ofNat 32 (s.hif.pba.toNat >>> (8 * (off - 0x3F8000) / 32 * 32)), s)
  else if 0x340000 ≤ off then (0, s)
  else
    let key := off / 0x40000 * 65536 + off % 0x40000 / 4
    if 0xC0002 ≤ key then (0, s) else
    let (w, s) := readKey s key
    (w.setWidth 32, s)

/-! The commands -/

/-- REGISTER_WRITE: a write by a core in the ring it runs in, or by the host (R12). -/
def execRegisterWrite (w : RegWrite) (s : State) : Out :=
  match w with
  | .core c blk off v =>
    if !coreRuns s c.val || !blockPowered s blk.val then ok s else ok (coreRegWrite s c.val (s.core c.val).ring (blk.val * 65536 + off.toNat) v)
  | .host off ndw be v =>
    if !s.boot.mainOn then ok s else ok (hostRegWrite (hostAccess s) off.toNat ndw be v)

/-- DESCRIPTOR_WRITE: word w of descriptor d written by a core; the descriptor changes as a whole at w7 (R78, R98). -/
def execDescriptorWrite (c : CoreId) (d : Fin 4096) (w : Fin 8) (v : Word) (s : State) : Out :=
  if !coreRuns s c.val || !s.boot.mainOn then ok s else ok (coreRegWrite s c.val (s.core c.val).ring (Reg.VE_DESC + 8 * d.val + w.val) v)

/-- BAR0_READ: a host read of one DW; more than one ends in a completer abort (R366). -/
def execBar0Read (byteOff : BitVec 22) (ndw : Nat) (s : State) : Out :=
  if !s.boot.mainOn then ok s else
  let s := hostAccess s
  if ndw ≠ 1 then ok { s with hif := { s.hif with lastRead := [], aborted := true, cfg := s.hif.cfg.abort } } else
  let (v, s) := hostRegRead s byteOff.toNat
  ok { s with hif := { s.hif with lastRead := (bytesOfNat 4 v.toNat).map some, aborted := false } }

end Sys2Proof.Machine
end

