-- ==== Sys2Proof/Machine/CoreRing.lean ====
section
/-! DEFINITION. A control core's far accesses and register ring in issue order (R217, R221 to R223, R260), and the vector queue instructions (R258, R259). -/
namespace Sys2Proof.Machine
open Sys2Proof

/-! Far accesses in issue order (R222) -/

/-- What a far load reads when it is performed: its words, 0 for one that is poisoned or that its target refuses, and how it failed (R217, R272, R440). Of two words only one that fails reads 0; either or both give one late bus error with the first word's address (DESIGN CHOICE, log entry 55). -/
def farRead (s : State) (f : FarLoad) : (Word × Word × BitVec 4) × State :=
  let as := addrsFrom f.addr.toNat (if f.dbl then 2 else 1)
  let gone (a : Nat) : Bool := match spaceOf s a with | .unmapped | .regs _ _ => true | _ => false
  let val (a : Nat) : Word := if gone a || poisonedAt s a then 0 else memRead s a
  let kind : Nat := 2 * b2n (as.any (poisonedAt s)) + b2n (as.any gone)
  let s := if as.any (poisonedAt s) then logEv s 0x1002 .action 5 else s
  let s := if as.any (fun a => match spaceOf s a with | .store _ => true | _ => false) then s.useXspi else s
  ((val (as.headD 0), val (as.getD 1 0), BitVec.ofNat 4 kind), s)

/-- Whether the commands that a far load waits for have completed (R259). -/
def fencesDone (s : State) (f : FarLoad) : Bool := f.fence.all fun e => decide (e.2 ≤ (s.queue e.1).completed)

/-- Whether a far load may be performed: its fences are done, and the state store serves it (R58, R259). -/
def loadReady (s : State) (f : FarLoad) : Bool := fencesDone s f && storeServes s f.addr.toNat (if f.dbl then 2 else 1)

/-- A posted access performed: a far store reaches its memory, a ring write its register (R217, R223). One whose target refuses it is discarded with a late bus error. -/
def performPosted (s : State) (c : Nat) (p : Posted) : State :=
  let a := p.addr.toNat
  if p.isRing then
    if blockPowered s (a / 65536 % 16) then coreRegWrite s c p.ring.toNat (a % 0x1000000) p.lo else queueLate s c 0xD a
  else if (storeKey s a).isNone then queueLate s c 0x9 a
  else
    let s := memWrite s a p.lo
    match p.hi with
    | some v => if (storeKey s ((a + 1) % 2 ^ 36)).isNone then queueLate s c 0x9 ((a + 1) % 2 ^ 36) else memWrite s ((a + 1) % 2 ^ 36) v
    | none => s

/-- The oldest access of a core that is not yet performed, performed; none where there is none, or where it waits for a fence or the state store (R58, R222, R259). -/
def performOldest (s : State) (c : Nat) : Option State :=
  let k := s.core c
  match k.far.findIdx? (fun f => f.got.isNone), k.posted with
  | none, [] => none
  | none, p :: rest => some (performPosted (s.updCore c fun k => { k with posted := rest }) c p)
  | some i, ps =>
    match k.far[i]?, ps with
    | some f, [] =>
      if !loadReady s f then none else
      let (g, s) := farRead s f
      some (s.updCore c fun k => { k with far := k.far.set i { f with got := some g } })
    | some f, p :: rest =>
      if f.before = 0 then
        if !loadReady s f then none else
        let (g, s) := farRead s f
        some (s.updCore c fun k => { k with far := k.far.set i { f with got := some g } })
      else some (performPosted (s.updCore c fun k => { k with posted := rest, far := k.far.map fun f => if f.got.isNone then { f with before := f.before - 1 } else f }) c p)
    | none, _ => none

/-- Accesses performed in issue order while `goOn` asks for more; none where a fence holds one of them back. -/
def performWhile (goOn : Core → Bool) (c : Nat) : Nat → State → Option State
  | 0, s => some s
  | fuel + 1, s => if !goOn (s.core c) then some s else
    match performOldest s c with
    | some s => performWhile goOn c fuel s
    | none => none

/-- Every far access and ring write of a core performed. -/
def performAll (s : State) (c : Nat) : Option State :=
  performWhile (fun k => !k.posted.isEmpty || k.far.any (·.got.isNone)) c ((s.core c).posted.length + (s.core c).far.length) s

/-- Every posted access of a core performed, with the far loads issued before them (R222). -/
def performStores (s : State) (c : Nat) : Option State :=
  performWhile (fun k => !k.posted.isEmpty) c ((s.core c).posted.length + (s.core c).far.length) s

/-- FAR_LOAD_DATA: the data of the core's oldest pending far load arrives in its entries (R217); a failed load gives 0, with a late bus error. `refused`: its target refuses the address (DEDUCED, log entry 17). -/
def execFarLoadData (c : CoreId) (refused : Bool) (s : State) : Out :=
  match (s.core c.val).far with
  | [] => ok s
  | _ :: _ =>
    match performWhile (fun k => match k.far with | f :: _ => f.got.isNone | [] => false) c.val ((s.core c.val).posted.length + 1) s with
    | none => ok s
    | some s =>
      match (s.core c.val).far with
      | f :: rest =>
        let g := if refused then (0, 0, 1) else f.got.getD (0, 0, 0)
        let s := s.updCore c.val fun k => { k with stack := putAt k.stack f.pos (if f.dbl then [g.1, g.2.1] else [g.1]), far := rest, stalled := false }
        if g.2.2 = 0 then ok s else ok (queueLate s c.val g.2.2.toNat f.addr.toNat)
      | [] => ok s

/-- POSTED_STORE_PERFORMED: the core's oldest posted access is performed, after the far loads issued before it (R217, R222) (DEDUCED, log entry 17). -/
def execPostedStorePerformed (c : CoreId) (s : State) : Out :=
  let n := (s.core c.val).posted.length
  if n = 0 then ok s else
  match performWhile (fun k => decide (n ≤ k.posted.length)) c.val ((s.core c.val).far.length + 1) s with
  | some s => ok (s.updCore c.val fun k => { k with stalled := false })
  | none => ok s

/-! Register ring (R221, R223, R260) -/

/-- The address fault of a ring access: a block number from 0xD on (R260), or a block of the main domain while it has no power. -/
def ringFault (s : State) (b : Nat) (store : Bool) (off : Nat) : Option Exc :=
  if 13 ≤ b ∨ !blockPowered s b then some ⟨0x03, accessInfo store false false, some (regAddr (b * 65536 + off))⟩ else none

/-- A register read that replaces the top `need` entries; the core's earlier accesses are performed first. -/
def ringLoad (need b : Nat) (offOf : Core → Nat) (x : Ctx) (s : State) : Res :=
  let k := s.core x.c
  match ringFault s b false (offOf k) with
  | some e => .exc e
  | none => match performAll s x.c with
    | none => .wait
    | some t =>
      let (v, t) := coreRegRead t x.c k.ring (b * 65536 + offOf k)
      .done (t.updCore x.c fun k => k.replace need [v]) none

/-- A register write, posted. -/
def ringStore (need b : Nat) (offOf valOf : Core → Nat) (x : Ctx) (s : State) : Res :=
  let k := s.core x.c
  match ringFault s b true (offOf k) with
  | some e => .exc e
  | none => .done (s.updCore x.c fun k => { k.replace need [] with
      posted := k.posted ++ [(⟨true, BitVec.ofNat 36 (regAddr (b * 65536 + offOf k)), wd (valOf k), none, BitVec.ofNat 2 k.ring⟩ : Posted)] }) none

/-- LDR: ( off -- x ). -/
def ldrOp (b : Nat) : CoreOp := ⟨false, 0x13, b, 0, 24, 1, 1, [0], false, .machine (ringLoad 1 b fun k => k.arg 1 0)⟩
/-- STR: ( x off -- ). -/
def strOp (b : Nat) : CoreOp := ⟨false, 0x13, 0x80 + b, 0, 2, 2, 0, [0, 1], false, .machine (ringStore 2 b (fun k => k.arg 2 1) (fun k => k.arg 2 0))⟩
/-- LDRX: ( -- x ). -/
def ldrxOp (b off : Nat) : CoreOp := ⟨true, 0x15, b, off, 24, 0, 1, [], false, .machine (ringLoad 0 b fun _ => off)⟩
/-- STRX: ( x -- ). -/
def strxOp (b off : Nat) : CoreOp := ⟨true, 0x16, b, off, 2, 1, 0, [0], false, .machine (ringStore 1 b (fun _ => off) (fun k => k.arg 1 0))⟩

def execLdr (c : CoreId) (cond : Cond) (b : BitVec 4) (s : State) : Out := issue (ldrOp b.toNat) c cond s
def execStr (c : CoreId) (cond : Cond) (b : BitVec 4) (s : State) : Out := issue (strOp b.toNat) c cond s
def execLdrx (c : CoreId) (cond : Cond) (b : BitVec 4) (off : Word) (s : State) : Out := issue (ldrxOp b.toNat off.toNat) c cond s
def execStrx (c : CoreId) (cond : Cond) (b : BitVec 4) (off : Word) (s : State) : Out := issue (strxOp b.toNat off.toNat) c cond s

/-- KEYFIFO_READ: a core reads AON_KEYFIFO, which gives up its oldest entry (R362). -/
def execKeyfifoRead (c : CoreId) (s : State) : Out := issue (ldrxOp 9 0x15) c .al s

/-! Vector queues (R258, R259) -/

/-- A push of the command at an address, after every earlier far store and STR of the core (R222); its outcome replaces `need` entries and sets Z for ACCEPTED. `step`: the register that an accepted push steps by 16, in its mode (R205 to R207, R258). -/
def vissueAct (need q : Nat) (addrOf : Core → Nat) (step : Option Nat) (x : Ctx) (s : State) : Res :=
  match performStores s x.c with
  | none => .wait
  | some s =>
    let k := s.core x.c
    let a := addrOf k
    let (o, t) := pushVE s q k.ring a (roleNo s x.c) none
    let answer (k : Core) : Core := (k.replace need [wd o.code]).setSt 0 0 (b2n (o == .accepted))
    match if o = .accepted then step else none with
    | none => .done (t.updCore x.c answer) none
    | some n => match k.stepped n 16 with
      | some v => .done (t.updCore x.c fun k => (answer k).setAddr n v) none
      | none => .exc ⟨0x03, 0, some a⟩

/-- VISSUE q: ( ad -- r ). -/
def vissueOp (q : Nat) : CoreOp := ⟨false, 0x12, q, 0, 4, 3, 1, [0, 1, 2], false, .machine (vissueAct 3 q (fun k => k.argAddr 3 0) none)⟩
/-- VISSUEX: the command address is An; with S = 1 an accepted push steps An by 16. -/
def vissuexOp (q n : Nat) (st : Bool) : CoreOp :=
  ⟨true, 0x12, q, 8 * b2n st + n, 5, 0, 1, [], false, .machine (vissueAct 0 q (fun k => k.addr n) (if st then some n else none))⟩
/-- VPOLL q: ( -- x ), x the value of VE_QSTATq. -/
def vpollOp (q : Nat) : CoreOp :=
  ⟨false, 0x12, 0x20 + q, 0, 3, 0, 1, [], false, .machine fun x s => .done (s.updCore x.c fun k => k.replace 0 [wd ((viewVe s 0x102 q).getD 0)]) none⟩

/-- How many commands of a queue must have completed for the last that a role's core pushed to have; none where it has no command there. -/
def fenceNeed (s : State) (q role : Nat) : Option Nat :=
  let v := s.queue q
  let l := v.prog.map (·.entry) ++ v.waiting
  match (l.zipIdx.filter fun e => e.1.role == role && e.1.host.isNone).getLast? with
  | some e => some (v.completed + e.2 + 1)
  | none => none

/-- VFENCE q: the next far load delivers its data only after the commands that the core pushed to Qq have completed. -/
def vfenceOp (q : Nat) : CoreOp :=
  ⟨false, 0x12, 0x40 + q, 0, 2, 0, 0, [], false, .machine fun x s => .done (s.updCore x.c fun k => { k with fence := k.fence ++ ((fenceNeed s q (roleNo s x.c)).map (q, ·)).toList }) none⟩

def execVissue (c : CoreId) (cond : Cond) (q : QueueId) (s : State) : Out := issueWith (vissueOp q.val) noAoc c cond s
def execVissuex (c : CoreId) (cond : Cond) (q : QueueId) (n : Fin 8) (step : Bool) (s : State) : Out := issueWith (vissuexOp q.val n.val step) noAoc c cond s
def execVpoll (c : CoreId) (cond : Cond) (q : QueueId) (s : State) : Out := issueWith (vpollOp q.val) noAoc c cond s
def execVfence (c : CoreId) (cond : Cond) (q : QueueId) (s : State) : Out := issueWith (vfenceOp q.val) noAoc c cond s

end Sys2Proof.Machine
end

