-- ==== Sys2Proof/Machine/HostCmds.lean ====
section
/-! DEFINITION. Host commands and accesses: BAR2 (R368, R369), NOP and FENCE (R377), LOAD and STORE with the DMA movers (R378, R385), VECTOR (R382), QUERY and LIFE (R384). -/
namespace Sys2Proof.Machine
open Sys2Proof

/-! BAR2 -/

/-- The internal word and the half of it (0 even byte) that a BAR2 byte offset reaches, with whether it can be written (Table 13.3). -/
def bar2At (o : Nat) : Option (Nat × Nat × Bool) :=
  if o < 0x800000000 then some (o / 2, o % 2, true)
  else if o < 0x808000000 then some (0x800000000 + (o - 0x800000000) / 2, o % 2, true)
  else if 0xC00000000 ≤ o ∧ o < 0xC80000000 then some (0xA00000000 + (o - 0xC00000000) / 2, o % 2, false)
  else none

/-- Whether a BAR2 byte offset is mapped. -/
def bar2Mapped (s : State) (o : Nat) : Bool :=
  match bar2At o with
  | some (a, _, _) => (storeKey s a).isSome
  | none => false

/-- Whether a host write may change the word at a BAR2 byte offset (R27, R369). -/
def bar2Writable (s : State) (o : Nat) : Bool :=
  match bar2At o with
  | some (a, _, w) => w && (storeKey s a).isSome && !inStatePlane s a
  | none => false

/-- Bytes written through BAR2, the disabled ones `none`; a poisoned unit written whole is poisoned no more (R41). -/
def bar2Store (s : State) (off : Nat) (data : List (Option Byte)) : State :=
  let put (s : State) (e : Option Byte × Nat) : State :=
    match e.1, bar2At (off + e.2) with
    | some b, some (a, h, _) => memWriteMask s a (wd (b.toNat * 256 ^ h)) (wd (0xFF * 256 ^ h))
    | _, _ => s
  let s := data.zipIdx.foldl put s
  let whole (a : Nat) : Bool := data.zipIdx.any fun e => e.1.isSome && match bar2At (off + e.2) with
    | some (x, h, _) => x == a && h == 0 && (data.getD (e.2 + 1) none).isSome
    | none => false
  { s with poison := s.poison.filter fun u => !((List.range (eccSize u)).all fun i => whole (u + i)) }

/-- BAR2_WRITE: into the state store window, a state plane or an unmapped address it is discarded whole and counted (R369). -/
def execBar2Write (off : BitVec 36) (data : List (Option Byte)) (s : State) : Out :=
  if !s.boot.mainOn then ok s else
  let s := hostAccess s
  if data.zipIdx.all (fun e => e.1.isNone || bar2Writable s (off.toNat + e.2)) then ok (bar2Store s off.toNat data) else ok (hostBad s 0x7010 off.toNat)

/-- A poisoned completion is reported in the AER status, bit 12 (R440) (PRESUMED, log entry 51). -/
def reportPoisoned (s : State) : State := { s with hif := { s.hif with cfg := { s.hif.cfg with aerUncorr := s.hif.cfg.aerUncorr ||| 0x1000 } } }

/-- The byte at a BAR2 offset; none where its word is poisoned, and the completion carries the poisoned-data bit (R440). -/
def bar2Byte (s : State) (o : Nat) : Option Byte :=
  match bar2At o with
  | some (a, h, _) => if poisonedAt s a then none else some ((memReadSeen s a >>> (8 * h)).setWidth 8)
  | none => none

/-- BAR2_READ: an unmapped address in it ends in a completer abort (R369); a poisoned word is reported through AER (R440). -/
def execBar2Read (off : BitVec 36) (len : Nat) (s : State) : Out :=
  if !s.boot.mainOn then ok s else
  let s := hostAccess s
  let os := (List.range len).map (off.toNat + ·)
  if !os.all (bar2Mapped s) then ok { s with hif := { s.hif with lastRead := [], aborted := true, cfg := s.hif.cfg.abort } } else
  let bs := os.map (bar2Byte s)
  let s := { s with hif := { s.hif with lastRead := bs, aborted := false } }
  match os.find? fun o => (bar2Byte s o).isNone with
  | some _ => ok (logEv (reportPoisoned s) 0x1002 .action 5)
  | none => ok s

/-! NOP, FENCE -/

/-- NOP. -/
def execNopCommand (r : RingId) (cid : Word) (s : State) : Out :=
  match s.startable r cid 0x01 with
  | some t => ok (postCompletion s (r, t.seq) .ok)
  | none => ok s

/-- FENCE: NOP with AFTER = 1; nothing later of its ring starts before it has completed (R377). -/
def execFence (r : RingId) (cid : Word) (s : State) : Out :=
  match s.startable r cid 0x02 with
  | some t => ok (postCompletion s (r, t.seq) .ok)
  | none => ok s

/-! LOAD, STORE and the movers -/

/-- One row cut into chunks of up to 4 KB: host byte address, device word address, bytes (R385). -/
def rowChunks (h d n : Nat) : List (Nat × Nat × Nat) := (List.range (divCeil n 4096)).map fun j => (h + 4096 * j, d + 2048 * j, min 4096 (n - 4096 * j))

/-- Whether the body of a LOAD or STORE is in range (Table 13.8). -/
def xferBodyOk (t : Taken) : Bool :=
  let rowb := t.field 16 4
  let rows := t.field 20 4
  t.field 8 8 % 2 == 0 && rowb % 2 == 0 && 2 ≤ rowb && 1 ≤ rows && rowb * rows ≤ 4294967294 &&
    (rows ≤ 1 || (rowb ≤ t.field 24 4 && rowb / 2 ≤ t.field 40 4))

/-- Whether the device range of every row lies where the command may go: HBM or the vector store and no state plane for LOAD, a mover's memories for STORE (R378, Table 2.2). -/
def xferRangeOk (s : State) (t : Taken) (load : Bool) : Bool :=
  (List.range (t.field 20 4)).all fun i =>
    let a := t.field 32 8 + i * t.field 40 4
    let n := t.field 16 4 / 2
    if load then mainRange s a n && !overlapsPlane s a n else mainRange s a n || storeRange s a n

/-- A LOAD or STORE starts: its checks, then its chunks join the movers' work (DEDUCED, log entry 24). -/
def startXfer (s : State) (r : RingId) (t : Taken) (load : Bool) : State :=
  let h : HostRef := (r, t.seq)
  if !xferBodyOk t then postCompletion s h .badCommand 0x05
  else if !xferRangeOk s t load then postCompletion s h .badRegion
  else
    let ch := (List.range (t.field 20 4)).flatMap fun i => rowChunks (t.field 8 8 + i * t.field 24 4) (t.field 32 8 + i * t.field 40 4) (t.field 16 4)
    let s := leaveIdle (s.begin h)
    { s with hif := { s.hif with dma := s.hif.dma ++ [(⟨h, load, t.cls, ch, 0⟩ : Dma)] } }

/-- LOAD (R378). -/
def execLoad (r : RingId) (cid : Word) (s : State) : Out :=
  match s.startable r cid 0x10 with
  | some t => ok (startXfer s r t true)
  | none => ok s

/-- STORE (R378). -/
def execStore (r : RingId) (cid : Word) (s : State) : Out :=
  match s.startable r cid 0x11 with
  | some t => ok (startXfer s r t false)
  | none => ok s

/-- The transfer whose next chunk a free mover takes: of those with a chunk that no mover has, the highest class, within it the one served least recently, which stands first (R385). -/
def nextDma (s : State) : Option Dma :=
  minBy (fun (x : Dma) => x.cls) (s.hif.dma.filter fun (x : Dma) => decide ((s.hif.movers.filter (· == some x.host)).length < x.chunks.length))

/-- Mover m takes a chunk, if there is one; its transfer is then the one served last (R385). -/
def takeChunk (s : State) (m : Nat) : State :=
  let s := { s with hif := { s.hif with movers := s.hif.movers.set m none } }
  match nextDma s with
  | none => s
  | some d => { s with hif := { s.hif with movers := s.hif.movers.set m (some d.host), dma := s.hif.dma.filter (fun (x : Dma) => x.host != d.host) ++ [d] } }

/-- Whether a host transfer without a class, which counts as NORMAL, waits: while every mover is busy, or an URGENT transfer has a chunk that no mover has taken, which a free mover takes first (R385). The row of such a command stands for the end of its last chunk (DESIGN CHOICE, log entry 52). -/
def transferWaits (s : State) : Bool :=
  s.hif.movers.all (·.isSome) || s.hif.dma.any fun (d : Dma) => d.cls == 1 && decide ((s.hif.movers.filter (· == some d.host)).length < d.chunks.length)

/-- A command ends at a host-memory error: EV-0x7040, BAD_COMMAND with DETAIL 0x07. -/
def hostMemError (s : State) (h : HostRef) (moved : Nat) : State :=
  let cid := match s.takenAt h with | some t => t.cid.toNat | none => 0
  postCompletion (logEv s 0x7040 .action 1 h.1.val [h.1.val, cid]) h .badCommand 0x07 moved

/-- A transfer's bytes of whole rows moved, which is what a host-memory error reports (R378). -/
def wholeRows (s : State) (d : Dma) : Nat :=
  match s.takenAt d.host with
  | some t => d.moved / t.field 16 4 * t.field 16 4
  | none => d.moved

/-- The first chunk of a transfer moved; the transfer ends with its last chunk, a host-memory error, or unreadable data (R378, R440). A LOAD uses the bytes that host memory returned; fewer than the chunk asks for are no completed chunk. -/
def moveChunk (s : State) (d : Dma) (hostErr : Bool) (data : List Byte) : State :=
  let drop (s : State) : State := { s with hif := { s.hif with dma := s.hif.dma.filter (fun (x : Dma) => x.host != d.host) } }
  let keep (s : State) (x : Dma) : State := { s with hif := { s.hif with dma := s.hif.dma.map fun (y : Dma) => if y.host == d.host then x else y } }
  match d.chunks with
  | [] => postCompletion (drop s) d.host .ok 0 d.moved
  | (ha, da, n) :: rest =>
    if hostErr then hostMemError (drop s) d.host (wholeRows s d)
    else if d.toDev && data.length < n then s
    else if !d.toDev && !storeServes s da (n / 2) then s
    else
      let s := if storeRange s da (n / 2) && !mainRange s da (n / 2) then s.useXspi else s
      let bad := if d.toDev then none else poisonIn s da (n / 2)
      match bad with
      | some a =>
        let s := hostWrite s ha (bytesOfWords (memReads s da (a - da)))
        let s := logEv s 0x1002 .action 5
        postCompletion (drop s) d.host .badRegion 0 (d.moved + 2 * (a - da))
      | none =>
        let s := if d.toDev then memWrites s da (wordsOfBytes (data.take n)) else hostWrite s ha (bytesOfWords (memReads s da (n / 2)))
        let x := { d with chunks := rest, moved := d.moved + n }
        if rest.isEmpty then postCompletion (drop s) d.host .ok 0 x.moved else keep s x

/-- The transfer whose chunk a mover has. -/
def moverDma (s : State) (m : Nat) : Option Dma :=
  match s.hif.movers.getD m none with
  | some h => s.hif.dma.find? (fun (x : Dma) => x.host == h)
  | none => none

/-- DMA_CHUNK_DONE: mover m ends its chunk and takes the next by class; a mover without one takes it first (R385) (DESIGN CHOICE, log entry 12) (DEDUCED, log entry 24). In DOZE a chunk waits: HBM is in self-refresh and the link in L1 (Table 12.1). -/
def execDmaChunkDone (m : Fin 8) (hostErr : Bool) (data : List Byte) (s : State) : Out :=
  if dozing s then ok s else
  let s := if (moverDma s m.val).isSome then s else takeChunk s m.val
  match moverDma s m.val with
  | none => ok s
  | some d => ok (takeChunk (moveChunk s d hostErr data) m.val)

/-! VECTOR -/

/-- The pushes of a VECTOR that remain, in order: a FULL queue ends this try, another refusal ends the batch (R382). The host pushes with the rights of ring 2 and stands behind role 0. -/
def vectorPushes (h : HostRef) (q : Nat) : Nat → State → State
  | 0, s => s
  | fuel + 1, s =>
    match s.takenAt h with
    | none => s
    | some t =>
      if t.pushLeft = 0 then s else
      let a := t.field 8 8 + 16 * (t.field 16 2 - t.pushLeft)
      match pushVE s q 2 a 0 (some h) with
      | (.accepted, s) => vectorPushes h q fuel (s.updTaken h fun t => { t with prog := t.prog + 1, pushLeft := t.pushLeft - 1 })
      | (.full, s) => s
      | (_, s) =>
        let s := s.updTaken h fun t => { t with bad := t.bad + t.pushLeft, pushLeft := 0, stopped := true }
        match s.takenAt h with
        | some t => if t.prog = 0 then postCompletion s h .permission 0 t.bad else s
        | none => s

/-- VECTOR (R382): COUNT commands from BATCH on go to the queue that HIF_RINGn_PERM named when the entry was taken (R417) (DEDUCED, log entry 24). -/
def execVector (r : RingId) (cid : Word) (s : State) : Out :=
  match s.startable r cid 0x50 with
  | none => ok s
  | some t =>
    let h : HostRef := (r, t.seq)
    let n := t.field 16 2
    if n = 0 ∨ 256 < n then ok (postCompletion s h .badCommand 0x05)
    else if t.field 8 8 % 16 ≠ 0 then ok (postCompletion s h .badCommand 0x06)
    else ok (vectorPushes h t.queue n ((s.begin h).updTaken h fun t => { t with pushLeft := n }))

/-- VECTOR_PUSH_RETRY: pushes refused as FULL are tried again (R382); in DOZE the vector engine accepts none (Table 12.3 step 6). -/
def execVectorPushRetry (r : RingId) (cid : Word) (s : State) : Out :=
  if dozing s then ok s else
  match (s.ring r.val).taken.find? fun t => t.cid == cid && t.op == 0x50 && t.started && t.pushLeft != 0 with
  | some t => ok (vectorPushes (r, t.seq) t.queue t.pushLeft s)
  | none => ok s

/-! QUERY, LIFE -/

/-- The header and a waymark's record of the waymark log (Table 15.4). -/
def wmHeader (s : State) : List Word :=
  [wd 0x574C, s.boot.starts, wd (16 * b2n s.boot.warm + s.boot.logCause), wd (s.boot.outcome.code)] ++ wordsOfNat 2 s.boot.startTk.toNat ++ wordsOfNat 2 s.boot.durTk.toNat

def wmRecord (r : WmRec) (n : Nat) : List Word :=
  [wd (n * 2048 + r.result * 256 + r.attempts * 16 + r.path), wd (r.detail.toNat * 256 + r.units.toNat)] ++ wordsOfNat 2 r.start.toNat ++ wordsOfNat 2 r.dur.toNat ++ [0, 0]

/-- The records of the waymark log, the header first (R407). -/
def wmLog (s : State) : List (List Byte) :=
  bytesOfWords (wmHeader s) :: s.boot.recs.zipIdx.map fun e => bytesOfWords (wmRecord e.1 e.2)

/-- The event log's entries of at least a SEQ, oldest first: those of the ring, then those queued (R428 to R430). -/
def eventsSince (s : State) (q : Nat) : List (List Word) := (validEntries s ++ s.ras.evq.map (·.words)).filter fun e => decide (q ≤ dwordAt e 2)

/-- The records of a QUERY item from INDEX on, with their size in bytes (Table 13.9); none for an item that is not defined. -/
def queryItem (s : State) (item index : Nat) : Option (Nat × List (List Byte)) :=
  match item with
  | 1 => some (32, [(List.finRange 32).map (Config.identityByte (b2n s.boot.fwB) (s.reg Reg.SYS_FWVER 2) (s.reg Reg.SYS_PLANVER 2))].drop index)
  | 2 => some (16, ((List.range 64).map fun p =>
      bytesOfWords ([wd ((viewSl s 0x100 p).getD 0), wd (s.reg (Reg.SL_LIFE + 32 * p))] ++ wordsOfNat 4 (s.reg (Reg.SL_SERIAL + 32 * p) 4) ++ [wd ((viewWf s 0x40 p).getD 0), 0])).drop index)
  | 3 => some (32, ((journalImage s).map fun j => bytesOfWords j.words ++ [0, 0]).drop index)
  | 4 => some (32, (eventsSince s (s.reg Reg.RAS_EVBASE 2 + index)).map bytesOfWords)
  | 5 => some (16, (wmLog s).drop index)
  | _ => none

/-- Where the records of a QUERY item from INDEX on stand in a memory whose words can be unreadable: the waymark log in AOC SRAM (R407), and the queued entries of the event log in HBM (R429). -/
def queryPlaces (s : State) (item index : Nat) : List (Option Nat) :=
  match item with
  | 4 => (eventsSince s (s.reg Reg.RAS_EVBASE 2 + index)).map fun e => if s.ras.evq.any (·.words == e) then some (queuedAt (dwordAt e 2)) else none
  | 5 => (List.range (24 - index)).map fun i => some (wmLogAt (index + i))
  | _ => []

/-- Bytes of records of n bytes before the first that cannot be read, where there is one (R440). -/
def unreadable (s : State) (places : List (Option Nat)) (n : Nat) : Option Nat :=
  places.zipIdx.findSome? fun (p, j) => p.bind fun a => (poisonIn s a (n / 2)).map fun k => j * n + 2 * (k - a)

/-- A command's bytes written to host memory by a DMA request, which ends IDLE (R345), and its completion (R373, R384). -/
def hostAnswer (s : State) (h : HostRef) (a : Nat) (bs : List Byte) (hostErr : Bool) : State :=
  let s := leaveIdle s
  if hostErr && !bs.isEmpty then hostMemError s h 0 else postCompletion (hostWrite s a bs) h .ok 0 bs.length

/-- QUERY (R384, R385): whole records only, at most LEN bytes (DEDUCED, log entry 24); a record that cannot be read ends it with BAD_REGION (R440). -/
def execQuery (r : RingId) (cid : Word) (hostErr : Bool) (s : State) : Out :=
  match s.startable r cid 0x70 with
  | none => ok s
  | some t =>
    let h : HostRef := (r, t.seq)
    match queryItem s (t.field 20 1) (t.field 24 4) with
    | none => ok (postCompletion s h .badCommand 0x05)
    | some (n, recs) =>
      if transferWaits s then ok s else
      let k := t.field 16 4 / n
      let bs := (recs.take k).flatMap id
      match unreadable s ((queryPlaces s (t.field 20 1) (t.field 24 4)).take k) n with
      | none => ok (hostAnswer s h (t.field 8 8) bs hostErr)
      | some i =>
        let s := logEv (leaveIdle s) 0x1002 .action 5
        ok (if hostErr && i != 0 then hostMemError s h 0 else postCompletion (hostWrite s (t.field 8 8) (bs.take i)) h .badRegion 0 i)

/-- Whether a slate command finds a drivable slate (R129, Table 15.3, R307). -/
def slateThere (s : State) (p : Nat) : Bool := slatesServed s && (s.port p).drivable && setValid s p

/-- The life counters of a port's slate, with GEN as the latest written and current counts (R384, Table 10.12). -/
def lifeNow (sl : Slate) : List Byte := lifeCopy sl (max (sl.genA.getD 0) (sl.genB.getD 0))

/-- The counters of LIFE written to the host, up to LEN bytes; NO_SLATE where the slate is absent or not drivable (R374). -/
def lifeAnswer (s : State) (h : HostRef) (t : Taken) (hostErr : Bool) : State :=
  match (s.port (t.field 20 1)).slate with
  | some sl => if slateThere s (t.field 20 1) then hostAnswer s h (t.field 8 8) ((lifeNow sl).take (t.field 16 4)) hostErr else postCompletion s h .noSlate
  | none => postCompletion s h .noSlate

/-- LIFE (R384, R385): with FLUSH = 1 the write of SL_PCTRLn.LIFEW comes first, and the counters follow once it has ended (DEDUCED, log entry 24). -/
def execLife (r : RingId) (cid : Word) (hostErr : Bool) (s : State) : Out :=
  match (s.ring r.val).taken.find? fun t => t.cid == cid && t.op == 0x71 && t.started with
  | some t =>
    let h : HostRef := (r, t.seq)
    if dozing s ∨ transferWaits s ∨ ((s.port (t.field 20 1)).lifeW.any fun w => w.host == some h) then ok s else ok (lifeAnswer s h t hostErr)
  | none =>
    match s.startable r cid 0x71 with
    | none => ok s
    | some t =>
      let h : HostRef := (r, t.seq)
      let p := t.field 20 1
      if t.field 21 1 = 0 ∨ !slateThere s p then (if transferWaits s then ok s else ok (lifeAnswer s h t hostErr))
      else if (s.port p).lifeW.isSome ∨ (s.port p).st ≠ .active then ok s
      else ok (writeLife (s.begin h) p (some h))

end Sys2Proof.Machine
end

