-- ==== Sys2Proof/Machine/HostPlan.lean ====
section
/-! DEFINITION. MODE_LOAD and OVERLAY_SET (R141, R381), PLAN_STAGE, PLAN_SWAP and the swap point (R415 to R418, Table 15.9). -/
namespace Sys2Proof.Machine
open Sys2Proof

/-! Host data -/

/-- The LEN bytes that a command reads at HOST; none while host memory has returned fewer. -/
def hostData (t : Taken) (data : List Byte) : Option (List Byte) := if data.length < t.field 16 4 then none else some (data.take (t.field 16 4))

/-! MODE_LOAD, OVERLAY_SET -/

/-- A mode in place of the one of the same number. -/
def putMode (m : Nat) (ws : List Word) (l : List (Nat × List Word)) : List (Nat × List Word) := l.filter (·.1 != m) ++ [(m, ws)]

/-- A slate takes a loaded mode: its resident set and its user layer hold it, and EV-0xB050 is logged; the regions it already has keep the mode they were formed with (R141, R154, Table 5.14). -/
def takeMode (m : Nat) (ws : List Word) (s : State) (p : Nat) : State :=
  match s.setOf p with
  | none => s
  | some r =>
    logEv (updLayer (makeResident (keepSets s p r) p { r with modes := putMode m ws r.modes }) p fun l => { l with modes := putMode m ws l.modes }) 0xB050 .note 3 p

/-- The ports that PORTS names. -/
def portsNamed (t : Taken) : List Nat := (List.range 64).filter fun p => bitN (t.field 24 8) p

/-- The first named slate whose set refuses the mode, and why; each slate before it has taken the mode into its own copy (R381) (DEDUCED, log entry 31). -/
def modeRefused (s : State) (m : Nat) (ws : List Word) : List Nat → Option (Nat × LoadFault)
  | [] => none
  | p :: ps => match s.setOf p with
    | none => modeRefused s m ws ps
    | some r => match checkMode r m ws (freeForMode s p r m) with
      | some f => some (p, f)
      | none => modeRefused (makeResident s p { r with modes := putMode m ws r.modes }) m ws ps

/-- MODE_LOAD (R141, R381), whose transfer ends IDLE (R345): every named slate takes the mode, or none does (DEDUCED, log entry 31). -/
def execModeLoad (r : RingId) (cid : Word) (hostErr : Bool) (data : List Byte) (s : State) : Out :=
  match s.startable r cid 0x40 with
  | none => ok s
  | some t =>
    let h : HostRef := (r, t.seq)
    let m := t.field 20 1
    let ps := portsNamed t
    if !within m 4 13 then ok (postCompletion s h .badCommand 0x05)
    else if !ps.all (slateThere s) then ok (postCompletion s h .noSlate)
    else if transferWaits s then ok s
    else if hostErr then ok (hostMemError (leaveIdle s) h 0)
    else match hostData t data with
    | none => ok s
    | some bs =>
      let s := leaveIdle s
      let ws := wordsOfBytes bs
      match modeRefused s m ws ps with
      | some (p, f) => ok (postCompletion (loadFailed s p f) h .badCommand (0x10 + f.code))
      | none => ok (postCompletion (writeLayer (ps.foldl (takeMode m ws) s)) h .ok 0 ps.length)

/-- A slate's overlay replaced or removed, with a new version; pixels at rest take their new trim class (R381). -/
def putOverlay (s : State) (p : Nat) (bs : Option (List Byte)) : State :=
  let s := updLayer s p fun l => { l with overlay := bs, ver := l.ver + 1 }
  writeLayer (retrimSlate (s.updSlate p fun sl => { sl with overlay := bs.getD [] }) p false)

/-- OVERLAY_SET (R345, R381) (DEDUCED, log entry 31). -/
def execOverlaySet (r : RingId) (cid : Word) (hostErr : Bool) (data : List Byte) (s : State) : Out :=
  match s.startable r cid 0x41 with
  | none => ok s
  | some t =>
    let h : HostRef := (r, t.seq)
    let p := t.field 20 1
    let clear := bitN (t.field 21 1) 0
    let done (s : State) : Out := ok (postCompletion s h .ok 0 (s.boot.layers.getD p Layer.empty).ver.toNat)
    if clear && (t.field 8 8 != 0 || t.field 16 4 != 0) then ok (postCompletion s h .badCommand 0x05)
    else if !slateThere s p then ok (postCompletion s h .noSlate)
    else if clear then done (putOverlay s p none)
    else match (s.port p).slate with
    | none => ok (postCompletion s h .noSlate)
    | some sl =>
      if t.field 16 4 ≠ sl.width * sl.height / 2 then ok (postCompletion s h .badCommand 0x05)
      else if transferWaits s then ok s
      else if hostErr then ok (hostMemError (leaveIdle s) h 0)
      else match hostData t data with
      | none => ok s
      | some bs => done (putOverlay (leaveIdle s) p (some bs))

/-! PLAN_STAGE -/

/-- The words copied into the plan staging area of the plan in effect, where it places one. -/
def stageWords (s : State) (ws : List Word) : State := match s.place 0x11 0 with | some pl => memWrites s pl.base ws | none => s

/-- PLAN_STAGE (R345, R415): LEN bytes are copied and checked (R413) (DEDUCED, log entry 32). -/
def execPlanStage (r : RingId) (cid : Word) (hostErr : Bool) (data : List Byte) (s : State) : Out :=
  match s.startable r cid 0x80 with
  | none => ok s
  | some t =>
    let h : HostRef := (r, t.seq)
    if s.boot.swapWait.isSome then ok s
    else if 0x100000 < t.field 16 4 then ok (postCompletion s h .badCommand 0x05)
    else if transferWaits s then ok s
    else if hostErr then ok (hostMemError (leaveIdle s) h 0)
    else match hostData t data with
    | none => ok s
    | some bs =>
      let s := leaveIdle s
      let ws := wordsOfBytes bs
      let (code, s) := checkPlan (stageWords s ws) ws
      if code = 0 then ok (postCompletion (logEv { s with boot := { s.boot with staged := some ws } } 0xF010 .note 0) h .ok)
      else ok (postCompletion { s with boot := { s.boot with staged := none } } h .badCommand 0x20 code)

/-! PLAN_SWAP -/

/-- The position and the size that a plan gives a port, with its PORTS word. -/
def portEntry (plan : List Word) (p : Nat) : Nat × Geom := let w := planPort plan p; (w, planGeom plan (w % 64))

/-- The words of a course in RAILS. -/
def courseBlock (plan : List Word) (co : Nat) : List Word := ((sectionBody plan 5).drop (4 + 8 * co)).take 8

/-- Whether a port has an open region or a waiting request; lost regions aside, whose slate is not there (R190). -/
def portInUse (s : State) (p : Nat) : Bool :=
  (s.regionsOn p).any (fun r => !r.lost) || s.disp.requests.any fun q => q.waiting && (s.parts q.rect).any fun e => e.1.map Fin.val == some p

/-- The fields of an issue queue that a swap may change only while it is empty (R416 code 0x13): binding, completion area, and the windows its WINMASK names in either plan. -/
def queueChanges (old new : List Word) (q : Nat) : Bool :=
  let a := sectionBody old 8
  let b := sectionBody new 8
  let part (l : List Word) (i n : Nat) : List Word := (l.drop i).take n
  part a (2 * q) 2 != part b (2 * q) 2 || part a (32 + 3 * q) 3 != part b (32 + 3 * q) 3 ||
    (List.range 16).any fun w => (bitN (wordAt a (2 * q)) w || bitN (wordAt b (2 * q)) w) && part a (80 + 8 * w) 8 != part b (80 + 8 * w) 8

/-- The check of R416 that a PLAN_SWAP fails, by its code; 0 where it passes. In SAFE-PLAN no plan is in effect, and what compares the two is left out (DEDUCED, log entry 32). -/
def swapCheck (s : State) (persist : Bool) : Nat :=
  match s.boot.staged with
  | none => 0x10
  | some new =>
    let old := s.boot.plan
    let live := s.boot.outcome != .safePlan
    if live && sectionBody old 4 != sectionBody new 4 then 0x11
    else if live && ((List.range 64).any (fun p => portEntry old p != portEntry new p && portInUse s p) ||
        (List.range 8).any fun co => courseBlock old co != courseBlock new co && (s.portsOf co).any (portInUse s)) then 0x12
    else if live && (List.range 16).any (fun q => queueChanges old new q && (s.queue q).depth != 0) then 0x13
    else if persist && (!s.memc.ssReady || s.memc.ssLost) then 0x14 else 0

/-- The copy that a persisted plan is written to: the one other than PLANNEXT (R418). -/
def spareCopy (s : State) : Bool := !dirFlag s 1

/-- The staged plan written into the spare copy (R418). -/
def writeCopy (s : State) : State := ssPut s 5 2 (if spareCopy s then 0x100000 else 0x80000) (s.boot.staged.getD [])

/-- The directory of a persisted swap: PLANNEXT names the copy, the memory of WM10 and WM11 clears, and the policy is the plan's (R405, R408, R418). -/
def persistDir (s : State) : State :=
  let plan := s.boot.staged.getD []
  let b := spareCopy s
  let pol := if hasSection plan 9 then sectionBody plan 9 else List.replicate 23 0
  let s := { s with boot := { s.boot with meth := (s.boot.meth.set 10 0).set 11 0 } }
  writeDir s false fun ws => clearMem [10, 11] (let ws := setFlag 1 b ws; ws.take 16 ++ pol ++ ws.drop 39)

/-- The completion of a swap: with PERSIST it waits until the directory is durable (R418). -/
def swapDone (s : State) (persist : Bool) (h : HostRef) : State :=
  if persist ∧ ssWaits s 4 0 then { s with boot := { s.boot with dirWait := some h } } else postCompletion s h .ok

/-- PLAN_SWAP in SAFE-PLAN: the sequence restarts at WM10 with the staged plan as its first method (Table 15.3). -/
def restartAtPlan (s : State) (persist : Bool) (h : HostRef) : State :=
  let src := if persist then b2n (spareCopy s) else 2
  let s := if persist then persistDir s else s
  let s := { s with boot := { s.boot with outcome := .running, planSrc := src, swapWait := none }, power := { s.power with inTrans := true } }
  wmBegin (swapDone s persist h) 10

/-- PLAN_SWAP (R416): one that passes waits for its swap point, its copy durable where PERSIST asks for one (DEDUCED, log entry 32). -/
def execPlanSwap (r : RingId) (cid : Word) (s : State) : Out :=
  match s.startable r cid 0x81 with
  | none => ok s
  | some t =>
    let h : HostRef := (r, t.seq)
    let persist := bitN (t.field 8 1) 0
    if s.boot.swapWait.isSome then ok s else
    match swapCheck s persist with
    | 0 =>
      let s := if persist then writeCopy s else s
      if s.boot.outcome = .safePlan ∧ !(persist && ssWaits s 5 2) then ok (restartAtPlan (s.begin h) persist h) else
      ok { s.begin h with boot := { (s.begin h).boot with swapWait := some (persist, h) } }
    | c => ok (postCompletion (logEv s 0xF012 .note 0 0xFF [c]) h .badCommand 0x20 c)

/-! The swap point (R417) -/

/-- A port that the new plan disables: its slate is detached, its lost records are discarded, and it goes OFF with no session (R190, R301). -/
def disablePort (s : State) (p : Nat) : State :=
  let s := lifeChunk (loseSlateRegions s p) p false
  let s := ((s.regionsOn p).filter (·.lost)).foldl discardRegion s
  let s := if (s.port p).slate.isSome then logEv s 0x4071 .note 6 p else s
  let s := setPortSt s p .off
  dropUnused (s.updPort p fun _ => Port.reset)

/-- A bucket above a new depth is cut to it; the amount cut. -/
def cutTo (b : Int) (depth : Nat) : Int × Nat := if (depth : Int) < b then (depth, (b - depth).toNat) else (b, 0)

/-- Buckets cut to depths that the swap has changed; ISSUED falls by the amount cut from the energy bucket (R176). -/
def cutBuckets (old s : State) : State :=
  let (e, n) := if bucketDepth old = bucketDepth s then (s.disp.ebucket, 0) else cutTo s.disp.ebucket (bucketDepth s)
  let h := if bucketDepth old = bucketDepth s then s.disp.hbucket else (cutTo s.disp.hbucket (bucketDepth s)).1
  { s with disp := { s.disp with ebucket := e, hbucket := h, issued := s.disp.issued - BitVec.ofNat 48 n }
           courses := s.courses.zipIdx.map fun (c, i) => { c with railb := if railDepth old i = railDepth s i then c.railb else (cutTo c.railb (railDepth s i)).1 } }

/-- A course whose set points change is powered off, and on again before its next frame; one that was not configured is powered on. -/
def resetRails (old new : List Word) (s : State) (co : Nat) : State :=
  let sp (plan : List Word) : List Word := ((courseBlock plan co).drop 1).take 6
  if sp old = sp new then s else
  match (s.course co).rail with
  | .up | .rising => (startPowerOff s co).updCourse co fun c => { c with onAfter := courseSet s co }
  | .off => if wordAt (sp old) 0 = 0 ∨ wordAt (sp old) 1 = 0 then requestOn s co else s
  | .falling | .fault => s

/-- R129 checked again for every slate with a resident set. -/
def recheckRails (s : State) : State :=
  (List.range 64).foldl (fun s p => match s.setOf p with
    | some r => if railsMatch s (s.courseOf p) r.words then s else logEv s 0xB012 .action 3 p
    | none => s) s

/-- Ports that the new plan enables train (R301). -/
def enablePorts (was : List Nat) (s : State) : State :=
  ((List.range 64).filter fun p => s.portEn p && !was.contains p).foldl (fun s p => if (s.port p).st = .off then setPortSt s p .detect else s) s

/-- A slate whose record no longer gives the geometry of its port's entry is not driven (R19, Table 10.11 check 0x3) (DEDUCED, log entry 32). -/
def recheckGeometry (s : State) : State :=
  (List.range 64).foldl (fun s p => match (s.port p).slate, s.geom p with
    | some sl, some g => if sl.width = g.w ∧ sl.height = g.h then s else attachFails s p 3
    | _, _ => s) s

/-- The staged plan's fields take effect (Table 15.9). -/
def applySwap (s : State) (new : List Word) : State :=
  let old := s.boot.plan
  let s0 := s
  let was := (List.range 64).filter (s.portEn ·)
  let s := (was.filter fun p => !bitN (planPort new p) 15).foldl disablePort s
  let s := { s with boot := { s.boot with plan := new } }
  let s := putOthers (putPorts (putRings (putBudget (putRails s new) new) new) new) new
  let s := putLights (cutBuckets s0 s) new
  let s := { s with courses := s.courses.zipIdx.map fun (c, i) => if courseRate s i = 0 then { c with rate := 0 } else c }
  enablePorts was (recheckRails (recheckGeometry ((List.range 8).foldl (resetRails old new) s)))

/-- SWAP_POINT: the swap is applied, EV-0xF011 is logged, and the completion is posted, with PERSIST once the directory is durable, which is written after the copy (R417, R418). A copy that a lost channel keeps from becoming durable refuses the swap (check 0x14). The staged plan stays staged until a PLAN_STAGE or a start (DEDUCED, log entry 32). -/
def execSwapPoint (s : State) : Out :=
  match s.boot.swapWait, s.boot.staged with
  | some (persist, h), some new =>
    if dozing s then ok s else
    if persist ∧ s.memc.ssLost then ok (postCompletion (logEv { s with boot := { s.boot with swapWait := none } } 0xF012 .note 0 0xFF [0x14]) h .badCommand 0x20 0x14) else
    if persist ∧ ssWaits s 5 2 then ok s else
    if s.boot.outcome = .safePlan then ok (restartAtPlan s persist h) else
    let s := applySwap s new
    let src := if persist then b2n (spareCopy s) else 2
    let s := if persist then persistDir s else s
    let s := (logEv s 0xF011 .note 0 0xFF [b2n persist]).regSet Reg.SYS_PLANVER (planVer new) 2
    ok (swapDone { s with boot := { s.boot with planSrc := src, swapWait := none } } persist h)
  | _, _ => ok s

end Sys2Proof.Machine
end

