-- ==== Sys2Proof/Machine/HostRender.lean ====
section
/-! DEFINITION. RENDER (R379, R468): its checks, scaling, colour, dithering and matching, and the write of its result (R26, R170). -/
namespace Sys2Proof.Machine
open Sys2Proof

/-- R, G and B of an element or of an error. -/
structure Rgb where
  r : Int
  g : Int
  b : Int
  deriving DecidableEq, Repr

/-- Channel i of a C30 element. -/
def chan (e i : Nat) : Nat := bitsN e (10 * i + 9) (10 * i)
/-- The channels of a C30 element. -/
def rgbOf (e : Nat) : Rgb := ⟨chan e 0, chan e 1, chan e 2⟩
/-- A function on each channel. -/
def Rgb.map (f : Int → Int) (x : Rgb) : Rgb := ⟨f x.r, f x.g, f x.b⟩
def Rgb.add (x y : Rgb) : Rgb := ⟨x.r + y.r, x.g + y.g, x.b + y.b⟩
def Rgb.sub (x y : Rgb) : Rgb := ⟨x.r - y.r, x.g - y.g, x.b - y.b⟩
/-- Each channel clamped to 0 to 1023 (R468 step 4). -/
def Rgb.clamp (x : Rgb) : Rgb := x.map (clampR 0 1023)
/-- The sum of squared differences of the channels (R379). -/
def Rgb.dist (x y : Rgb) : Nat := let d := x.sub y; (d.r * d.r + d.g * d.g + d.b * d.b).toNat

/-- The optical state, of those of a slate of n, whose palette entry lies nearest; the lower one on a tie (R379). -/
def matchState (pal : Nat → Nat) (n : Nat) (x : Rgb) : Nat := (minBy (fun t => (rgbOf (pal t)).dist x) (List.range n)).getD 0

/-- A RENDER's operands, as Table 13.8 lays them out. -/
structure RenderArgs where
  src    : Nat
  sw     : Nat
  sh     : Nat
  spitch : Nat
  rect   : Rect
  prog   : Nat
  filter : Bool
  serp   : Bool
  lut    : Nat
  qtab   : Nat
  deriving DecidableEq, Repr

def renderArgs (t : Taken) : RenderArgs :=
  let (x, y, w, h) := t.rectAt 24
  ⟨t.field 8 8, t.field 16 2, t.field 18 2, t.field 20 4, ⟨x, y, w, h⟩, t.field 32 1, bitN (t.field 33 1) 0, bitN (t.field 33 1) 1, t.field 36 8, t.field 44 8⟩

/-- A 32-bit element at a word address. -/
def elemAt (s : State) (a : Nat) : Nat := natOfWords [memReadSeen s a, memReadSeen s (a + 1)]

/-- The source element of a column and a line. -/
def RenderArgs.pixel (x : RenderArgs) (s : State) (c l : Nat) : Nat := elemAt s (x.src + 2 * (l * x.spitch + c))

/-- Nearest sample of target pixel (i, j) (R468 step 1). -/
def RenderArgs.nearest (x : RenderArgs) (s : State) (i j : Nat) : Nat := x.pixel s ((2 * i + 1) * x.sw / (2 * x.rect.w)) ((2 * j + 1) * x.sh / (2 * x.rect.h))

/-- A source position in 1/64 pixel (R468 step 2). -/
def sourcePos (i n w : Nat) : Nat := (clampR 0 (64 * (n - 1) : Nat) ((((2 * i + 1) * n * 64 / (2 * w) : Nat) : Int) - 32)).toNat

/-- Bilinear sample of target pixel (i, j) (R468 step 2). -/
def RenderArgs.bilinear (x : RenderArgs) (s : State) (i j : Nat) : Nat :=
  let u := sourcePos i x.sw x.rect.w
  let v := sourcePos j x.sh x.rect.h
  let e (dc dl : Nat) : Nat := x.pixel s (min (u / 64 + dc) (x.sw - 1)) (min (v / 64 + dl) (x.sh - 1))
  let ch (k : Nat) : Nat := lerp (lerp (chan (e 0 0) k) (chan (e 1 0) k) (u % 64)) (lerp (chan (e 0 1) k) (chan (e 1 1) k) (u % 64)) (v % 64)
  ch 0 + 1024 * ch 1 + 1048576 * ch 2 + 1073741824 * bitsN (e 0 0) 31 30

/-- Entry k of the grid at LUT, or of the identity grid where LUT = 0 (R126). -/
def RenderArgs.gridAt (x : RenderArgs) (s : State) (k : Nat) : Nat :=
  if x.lut = 0 then let n (v : Nat) : Nat := if v = 16 then 1023 else 64 * v; n (k % 17) + 1024 * n (k / 17 % 17) + 1048576 * n (k / 289)
  else elemAt s (x.lut + 2 * k)

/-- Steps 1 to 3 of R468: the coloured sample of target pixel (i, j). -/
def RenderArgs.colour (x : RenderArgs) (s : State) (i j : Nat) : Rgb :=
  let e := if x.filter then x.bilinear s i j else x.nearest s i j
  rgbOf (lut3Result e ((lut3Index e).map (x.gridAt s)))

/-- The palette entry of a state. -/
def RenderArgs.pal (x : RenderArgs) (s : State) (t : Nat) : Nat := elemAt s (x.qtab + 2 * t)

/-- Table 13.16 by lines. -/
def threshold : List Nat :=
  [0, 32, 8, 40, 2, 34, 10, 42, 48, 16, 56, 24, 50, 18, 58, 26, 12, 44, 4, 36, 14, 46, 6, 38, 60, 28, 52, 20, 62, 30, 54, 22] ++
  [3, 35, 11, 43, 1, 33, 9, 41, 51, 19, 59, 27, 49, 17, 57, 25, 15, 47, 7, 39, 13, 45, 5, 37, 63, 31, 55, 23, 61, 29, 53, 21]

/-- The offset of ORDERED at roof coordinates for a slate of n states (R468). -/
def orderedOffset (x y n : Nat) : Int := (2 * (threshold.getD (8 * (y % 8) + x % 8) 0 : Nat) - 63) * (1023 / (n - 1) : Nat) / 128

/-- The slate and its pixel at roof coordinates; none between slates. -/
def roofPixel (ps : List (Geom × PortId)) (x y : Nat) : Option (PortId × Nat × Nat) :=
  match ps.find? fun e => decide (e.1.x ≤ x) && decide (x < e.1.x + e.1.w) && decide (e.1.y ≤ y) && decide (y < e.1.y + e.1.h) with
  | some e => some (e.2, x - e.1.x, y - e.1.y)
  | none => none

/-- The placed positions with an enabled port. -/
def roofSlates (s : State) : List (Geom × PortId) := s.positions.filterMap fun e => e.2.map fun p => (e.1, p)

/-- The optical states of a port's slate. -/
def statesOf (s : State) (p : Nat) : Nat := match (s.port p).slate with | some sl => sl.nstates | none => 0

/-- A target of one pixel: port, column, line and state. -/
abbrev Target := PortId × Nat × Nat × Nat

/-- The error share floor((k × e + 8) / 16). -/
def errShare (k : Int) (e : Rgb) : Rgb := e.map fun v => (k * v + 8) / 16

/-- An error added to position i of a line; none outside it (R468). -/
def addErr (l : List Rgb) (i : Int) (e : Rgb) : List Rgb := if i < 0 then l else l.modify i.toNat (·.add e)

/-- The state of a diffusion: errors carried to this line and to the next, and the targets so far. -/
structure Diffusion where
  cur : List Rgb
  nxt : List Rgb
  out : List Target
  deriving DecidableEq, Repr

/-- One pixel of DIFFUSE (R468). `d` is the direction of the line's scan. -/
def diffusePixel (s : State) (x : RenderArgs) (ps : List (Geom × PortId)) (j : Nat) (d : Int) (z : Diffusion) (i : Nat) : Diffusion :=
  match roofPixel ps (x.rect.x + i) (x.rect.y + j) with
  | none => z
  | some (p, c, l) =>
    let v := ((x.colour s i j).add (z.cur.getD i ⟨0, 0, 0⟩)).clamp
    let t := matchState (x.pal s) (statesOf s p.val) v
    let e := v.sub (rgbOf (x.pal s t))
    let nxt := addErr (addErr (addErr z.nxt (i - d) (errShare 3 e)) i (errShare 5 e)) (i + d) (errShare 1 e)
    ⟨addErr z.cur (i + d) (errShare 7 e), nxt, z.out ++ [(p, c, l, t)]⟩

/-- The targets of DIFFUSE, line by line from the top. -/
def diffuse (s : State) (x : RenderArgs) (ps : List (Geom × PortId)) : List Target :=
  let zero := List.replicate x.rect.w (⟨0, 0, 0⟩ : Rgb)
  ((List.range x.rect.h).foldl (fun (z : Diffusion) j =>
    let back := x.serp && j % 2 == 1
    let is := if back then (List.range x.rect.w).reverse else List.range x.rect.w
    is.foldl (diffusePixel s x ps j (if back then -1 else 1)) ⟨z.nxt, zero, z.out⟩) ⟨zero, zero, []⟩).out

/-- The target of one pixel of PASS or ORDERED. -/
def plainPixel (s : State) (x : RenderArgs) (i j : Nat) (p : PortId) : Nat :=
  if x.prog = 0 then x.pixel s i j % 32 else
  let n := statesOf s p.val
  let o := orderedOffset (x.rect.x + i) (x.rect.y + j) n
  matchState (x.pal s) n (((x.colour s i j).map (· + o)).clamp)

/-- The targets of a RENDER, one for each pixel of its rectangle that lies on a slate. -/
def renderTargets (s : State) (x : RenderArgs) : List Target :=
  let ps := roofSlates s
  if x.prog = 1 then diffuse s x ps else
  (rectPixels ⟨0, 0, x.rect.w, x.rect.h⟩).filterMap fun q =>
    (roofPixel ps (x.rect.x + q.1) (x.rect.y + q.2)).map fun e => (e.1, e.2.1, e.2.2, plainPixel s x q.1 q.2 e.1)

/-- A target written: in place where OPEN is clear, and then the pending word is no longer valid; else as the pixel's pending target (R26, R170) (DEDUCED, log entry 25). -/
def writeTarget (s : State) (e : Target) : State :=
  let (p, c, l, t) := e
  let w := s.pixel p.val c l
  let pend (f : Nat → Nat) (s : State) : State := match s.pixelIn 0x02 p.val c l with | some a => memSet s a (wd (f (memGet s a).toNat)) | none => s
  if psOpen w then pend (fun _ => 32768 + 32 * t) s else pend (setBitsN · 15 15 0) (s.setPixel p.val c l (setBitsN w 9 5 t))

/-- Table 13.8's ranges (R379 check 1). -/
def RenderArgs.fieldsOk (x : RenderArgs) : Bool :=
  decide (x.prog ≤ 2) && within x.sw 1 4095 && within x.sh 1 4095 && (x.prog != 0 || (x.sw == x.rect.w && x.sh == x.rect.h))

/-- The word ranges that a RENDER reads: its source lines, and for DIFFUSE and ORDERED its grid and the palette entries of the slates it touches (DEDUCED, log entry 25). -/
def RenderArgs.ranges (x : RenderArgs) (s : State) : List (Nat × Nat) :=
  let n := ((s.parts x.rect).map fun e => match e.1 with | some p => statesOf s p.val | none => 0).foldl max 0
  (List.range x.sh).map (fun l => (x.src + 2 * l * x.spitch, 2 * x.sw)) ++
    (if x.prog = 0 then [] else (if x.lut = 0 then [] else [(x.lut, 9826)]) ++ [(x.qtab, 2 * n)])

/-- Whether the render program may read a range: C30 elements, two words each and so at an even address (R79), in a memory that a vector command reads (Table 2.2) (DEDUCED, log entry 25). -/
def renderRangeOk (s : State) (e : Nat × Nat) : Bool := e.1 % 2 == 0 && (mainRange s e.1 e.2 || storeRange s e.1 e.2)

/-- RENDER: the three checks of R379, then the render program; data it cannot read ends it with BAD_REGION before any pixel changes (R440) (DEDUCED, log entry 25). -/
def execRender (r : RingId) (cid : Word) (s : State) : Out :=
  match s.startable r cid 0x20 with
  | none => ok s
  | some t =>
    let h : HostRef := (r, t.seq)
    let x := renderArgs t
    if !x.fieldsOk then ok (postCompletion s h .badCommand 0x05) else
    match admitCheck s x.rect none with
    | some st => ok (postCompletion s h st)
    | none =>
      let rs := x.ranges s
      if !rs.all (renderRangeOk s) then ok (postCompletion s h .badCommand 0x06) else
      match rs.findSome? fun e => poisonIn s e.1 e.2 with
      | some a => ok (postCompletion (logEv s 0x1002 .action 5) h .badRegion)
      | none =>
        let l := renderTargets s x
        ok (postCompletion (l.foldl writeTarget (leaveIdle s)) h .ok 0 l.length)

end Sys2Proof.Machine
end

