-- ==== Sys2Proof/Machine/SideLane.lean ====
section
/-! DEFINITION. The side lane (Chapter 14): SMBus packets and message assembly, SMBALERT#, MCTP control, and the Kwavis messages. -/
namespace Sys2Proof.Machine
open Sys2Proof

/-! Packets (R390) -/

/-- A discard counted, saturating (HEALTH byte 13). -/
def discard (s : State) : State := { s with side := { s.side with discards := BitVec.ofNat 8 (satTo 255 (s.side.discards.toNat + 1)) } }

/-- The assembly of a source and a tag. -/
def assembly (s : State) (src : Byte) (tag : BitVec 3) : Option Reasm := s.side.reasm.find? fun x => x.src == src && x.tag == tag

def dropAssembly (s : State) (src : Byte) (tag : BitVec 3) : State := { s with side := { s.side with reasm := s.side.reasm.filter fun x => !(x.src == src && x.tag == tag) } }

/-- Codes of Table 14.4. -/
def kwavisCodes : List Nat := [1, 2, 3, 4, 0x10, 0x11, 0x12, 0x13, 0x20, 0x21, 0x30, 0x31]

/-- Whether a body has the length that Table 14.4 gives its message. -/
def kwavisLenOk (code n : Nat) : Bool :=
  match code with
  | 1 | 0x31 => n == 0
  | 2 | 0x10 => n == 5
  | 3 | 0x12 => n == 2
  | 4 => n == 3
  | 0x11 | 0x13 | 0x30 => n == 1
  | 0x20 => 6 ≤ n && n ≤ 244 && n % 2 == 0
  | 0x21 => n == 4
  | _ => false

/-- Whether the fields of a body are in range. -/
def kwavisFieldsOk (code : Nat) (b : List Byte) : Bool :=
  match code with
  | 2 => within (byteAt b 4) 1 7
  | 3 => decide (byteAt b 0 ≤ 22)
  | 4 => decide (byteAt b 0 ≤ 63)
  | 0x10 => [1, 2, 4].contains (byteAt b 0) && (byteAt b 0 == 1 || fieldBytes b 1 4 == 0)
  | 0x11 | 0x30 => decide (byteAt b 0 ≤ 1)
  | 0x12 => decide (byteAt b 1 ≤ 1)
  | 0x13 => decide (byteAt b 0 ≤ 1)
  | 0x20 => fieldBytes b 0 4 % 2 == 0 && decide (fieldBytes b 0 4 + (b.length - 4) ≤ 0x1000000)
  | _ => true

/-- The order that a message is (R398), with its kind and value. -/
def kwavisOrder (m : KMsg) : Option (Byte × Nat) :=
  match m.code.toNat with
  | 0x10 => some (0, byteAt m.body 0)
  | 0x11 => some (2, byteAt m.body 0)
  | 0x12 => some (3, byteAt m.body 0)
  | 0x13 => some (4, byteAt m.body 0)
  | _ => none

/-- A complete Kwavis message: checks 1 to 4 of R393; one that passes waits for its row. -/
def takeKwavis (s : State) (src : Byte) (tag : BitVec 3) (bs : List Byte) : State :=
  let code := BitVec.ofNat 8 (byteAt bs 4)
  let inst := BitVec.ofNat 8 (byteAt bs 6)
  let body := bs.drop 7
  if bs.length < 7 || byteAt bs 3 != 1 || byteAt bs 5 != 0 || !kwavisCodes.contains code.toNat then sendKwavis s src tag code inst .badMessage []
  else if !kwavisLenOk code.toNat body.length then sendKwavis s src tag code inst .badLength []
  else if s.side.msgs.any (·.src == src) then sendKwavis s src tag code inst .busy []
  else if !kwavisFieldsOk code.toNat body then sendKwavis s src tag code inst .badMessage []
  else
    let m : KMsg := ⟨src, code, inst, body, s.aon.tick, tag⟩
    let s := { s with side := { s.side with msgs := s.side.msgs ++ [m] } }
    match kwavisOrder m with
    | some (k, v) => noteOrder s m.tick false k v
    | none => s

/-- A complete message: Kwavis by its type and vendor ID; MCTP control messages are rows of their own; another type is not answered (DEDUCED, log entry 27). -/
def takeMessage (s : State) (src : Byte) (tag : BitVec 3) (bs : List Byte) : State :=
  if byteAt bs 0 = 0x7E ∧ byteAt bs 1 = 0x1F ∧ byteAt bs 2 = 0xA7 then takeKwavis s src tag bs else s

/-- SMBUS_PACKET (R390): a packet addressed to the device (R389). A bad packet is discarded, as is one over the transmission unit of 64 bytes (R388); one out of sequence discards its message; the last makes it a message of up to 256 bytes (DEDUCED, log entry 27). -/
def execSmbusPacket (src : Byte) (som eom : Bool) (seq : BitVec 2) (tag : BitVec 3) (pecOk countOk hdrOk : Bool) (bytes : List Byte) (s : State) : Out :=
  if !s.boot.vstby then ok s
  else if !(pecOk && countOk && hdrOk) ∨ 64 < bytes.length then ok (discard s)
  else
    let old := assembly s src tag
    let s := dropAssembly s src tag
    let s := if som && old.isSome then discard s else s
    match som, old with
    | false, none => ok (discard s)
    | som, old =>
      let (sofar, inOrder) := match som, old with
        | false, some x => (x.bytes, x.next == seq)
        | _, _ => ([], true)
      let all := sofar ++ bytes
      if !inOrder || 256 < all.length then ok (discard s)
      else if eom then ok (takeMessage s src tag all)
      else ok { s with side := { s.side with reasm := s.side.reasm ++ [(⟨src, tag, seq + 1, all⟩ : Reasm)] } }

/-- MESSAGE_REASSEMBLY_TIMEOUT (R390). -/
def execMessageReassemblyTimeout (src : Byte) (tag : BitVec 3) (s : State) : Out :=
  if (assembly s src tag).isSome then ok (discard (dropAssembly s src tag)) else ok s

/-- ALERT_RESPONSE_ADDRESS_READ (R391). -/
def execAlertResponseAddressRead (won : Bool) (s : State) : Out := ok (if won then { s with side := { s.side with alert := false } } else s)

/-! MCTP control (R388, R389). Layouts and completion codes are DSP0236's (PRESUMED). -/

/-- A byte that only DSP0236 or the sender fixes: a free value. -/
def mctpFree (s : State) : Byte × State := (Config.mctpByte s.freeCtr, { s with freeCtr := s.freeCtr + 1 })

/-- `n` such bytes. -/
def mctpFrees : Nat → State → List Byte × State
  | 0, s => ([], s)
  | n + 1, s => let (b, s) := mctpFree s; let (l, s) := mctpFrees n s; (b :: l, s)

/-- A control response: message type 0, the header byte that carries the request's instance, the command, the completion code, then the data. That byte and the request's message tag are no operands of these rows, so both are free values. -/
def sendControl (s : State) (dst cmd : Byte) (data : List Byte) : State :=
  if !s.boot.vstby then s else
  let (h, s) := mctpFree s
  let (t, s) := mctpFree s
  sendMessage s dst (t.setWidth 3) ([0, h, cmd] ++ data)

/-- Set Endpoint ID (R389): operations 0 and 1 set an endpoint ID other than 0x00 and 0xFF; others are refused as invalid data (PRESUMED, log entry 26). -/
def execSetEndpointId (src : Byte) (op : BitVec 2) (eid : Byte) (s : State) : Out :=
  if !s.boot.vstby then ok s
  else if op.toNat ≤ 1 ∧ eid ≠ 0 ∧ eid ≠ 0xFF then ok (sendControl { s with side := { s.side with eid := eid } } src 1 [0, 0, eid, 0])
  else ok (sendControl s src 1 [2])

/-- Get Endpoint ID: the endpoint ID, 0x00 until one is set (R389) (PRESUMED, log entry 26). -/
def execGetEndpointId (src : Byte) (s : State) : Out := ok (sendControl s src 2 [0, s.side.eid, 0, 0])

/-- Get Endpoint UUID. -/
def execGetEndpointUuid (src : Byte) (s : State) : Out := ok (sendControl s src 3 (0 :: (List.finRange 16).map Config.endpointUuid))

/-- Get MCTP Version Support: base specification and control protocol 1.3 (Table 14.1); the version of the Kwavis type is not given; other types are not supported (PRESUMED, log entry 26). -/
def execGetMctpVersionSupport (src : Byte) (msgType : Byte) (s : State) : Out :=
  if !s.boot.vstby then ok s
  else if msgType = 0xFF ∨ msgType = 0 then let (u, s) := mctpFree s; ok (sendControl s src 4 [0, 1, 0xF1, 0xF3, u, 0])
  else if msgType = 0x7E then let (v, s) := mctpFrees 4 s; ok (sendControl s src 4 ([0, 1] ++ v))
  else ok (sendControl s src 4 [0x80])

/-- Get Message Type Support: beside MCTP control, type 0x7E (Table 14.1). -/
def execGetMessageTypeSupport (src : Byte) (s : State) : Out := ok (sendControl s src 5 [0, 1, 0x7E])

/-- Get Vendor Defined Message Support: one entry, PCI vendor ID 0x1FA7 (Table 14.1). -/
def execGetVendorDefinedMessageSupport (src : Byte) (selector : Byte) (s : State) : Out :=
  if !s.boot.vstby then ok s
  else if selector = 0 then let (v, s) := mctpFrees 2 s; ok (sendControl s src 6 ([0, 0xFF, 0, 0x1F, 0xA7] ++ v))
  else ok (sendControl s src 6 [2])

/-! Requests -/

/-- The request of a source and a code that waits. -/
def State.kmsg (s : State) (src : Byte) (code : Byte) : Option KMsg := s.side.msgs.find? fun m => m.src == src && m.code == code

/-- Whether the main domain's own values are recorded ones (R394). -/
def staleSleep (s : State) : Bool := s.power.st == .sleep || s.power.st == .off
/-- Whether measured values are recorded ones (R394). -/
def staleMeasured (s : State) : Bool := staleSleep s || s.power.st == .doze

/-- Recorded value i, or the live one. -/
def valueOr (s : State) (stale : Bool) (i live : Nat) : Nat := if stale then wordAt s.side.stale i else live

/-- HEALTH's body (Table 14.4): counts of courses, ports and slates (DEDUCED, log entry 27). -/
def healthBody (s : State) : List Byte :=
  let live := staleWords s
  let m (i : Nat) : Nat := valueOr s (staleMeasured s) i (wordAt live i)
  let v (i : Nat) : Nat := valueOr s (staleSleep s) i (wordAt live i)
  let flags := b2n s.boot.mainOn + 2 * b2n s.side.blank + 4 * b2n (staleMeasured s) + 8 * (v 9 % 2) + 16 * b2n s.power.vinf
  bytesOfNat 1 s.power.st.code ++ bytesOfNat 1 flags ++ bytesOfNat 2 (m 0) ++ bytesOfNat 2 (m 1) ++ [s.side.railsOff] ++ bytesOfNat 1 (v 4) ++ bytesOfNat 1 (v 5) ++
    bytesOfNat 1 (v 6) ++ bytesOfNat 1 (v 7) ++ bytesOfNat 1 (v 8) ++ [s.side.lastOrd, s.side.discards] ++ bytesOfNat 6 s.aon.tick.toNat

/-- HEALTH (R394, R399). -/
def execHealth (src : Byte) (s : State) : Out :=
  match s.kmsg src 1 with
  | some m => ok (respond s m .ok (healthBody s))
  | none => ok s

/-- The entries that EVENTS returns from INDEX on, oldest first, and the index of the first (R395): from the log in RUN and IDLE, else from the mirror (DEDUCED, log entry 27). -/
def eventEntries (s : State) (index : Nat) : List (List Word) × Nat :=
  if staleMeasured s then
    let base := if staleSleep s then dwordAt s.side.stale 10 else s.reg Reg.RAS_EVBASE 2
    let l := s.side.mirror.filter fun e => decide (base + index ≤ dwordAt e 2)
    (l, match l.head? with | some e => dwordAt e 2 - base | none => index)
  else
    let base := s.reg Reg.RAS_EVBASE 2
    let l := eventsSince s (base + index)
    (l, match l.head? with | some e => dwordAt e 2 - base | none => index)

/-- EVENTS (R391, R395): up to COUNT entries, the next INDEX, and SMBALERT# released. -/
def execEvents (src : Byte) (s : State) : Out :=
  match s.kmsg src 2 with
  | none => ok s
  | some m =>
    let (l, i) := eventEntries s (fieldBytes m.body 0 4)
    let l := l.take (byteAt m.body 4)
    ok (respond { s with side := { s.side with alert := false } } m .ok (bytesOfNat 4 (i + l.length) ++ bytesOfNat 1 l.length ++ l.flatMap bytesOfWords))

/-- WAYMARKS (R407): up to 14 records, from the waymark named. -/
def execWaymarks (src : Byte) (s : State) : Out :=
  match s.kmsg src 3 with
  | none => ok s
  | some m => ok (respond s m .ok ((((wmLog s).drop (1 + byteAt m.body 0)).take (min 14 (byteAt m.body 1))).flatMap id))

/-- Check 5 of R393 for a message that needs the main domain: in SLEEP it raises wake source 1 and is answered NOT_READY; in DOZE it wakes the device first; while the main domain is off or held in reset it is NOT_READY; in SAFE-AON, and in SAFE-FW but for the firmware messages, it is NOT_READY (Tables 14.4, 15.3). -/
def needsMain (s : State) (m : KMsg) (fw : Bool) (act : State → State) : State :=
  if s.boot.outcome = .safeAon ∨ (s.boot.outcome = .safeFw ∧ !fw) then respond s m .notReady
  else match s.power.st with
  | .off | .sleep => wakeEvent (respond s m .notReady) 1
  | .doze => if s.boot.mainOn then act (dozeExit s 1) else respond s m .notReady
  | .idle | .run => if s.boot.mainOn then act (wakeEvent s 1) else respond s m .notReady

/-- LIFE: up to 192 bytes of the life copy from OFFSET; none without a slate. -/
def execKwavisLife (src : Byte) (s : State) : Out :=
  match s.kmsg src 4 with
  | none => ok s
  | some m =>
    ok (needsMain s m false fun s =>
      let bs := match (s.port (byteAt m.body 0)).slate with | some sl => lifeNow sl | none => []
      let bs := (bs.drop (fieldBytes m.body 1 2)).take 192
      respond s m .ok (bytesOfNat 2 bs.length ++ bs))

/-! Orders (R397, R398) -/

/-- Whether a POWER or UPDATE that has not started would be refused now, and so is no order (R398). -/
def orderRefused (s : State) (t : Taken) : Bool :=
  if t.op = 0x60 then (match stateOfCode (t.field 8 1) with | some x => x != .sleep && t.field 12 4 != 0 | none => true)
  else
    let (x, y, w, h) := t.rectAt 8
    decide (14 ≤ t.field 16 1) || (admitCheck s ⟨x, y, w, h⟩ (some (t.field 16 1))).isSome

/-- The orders known, without those of host commands that would be refused. -/
def soundOrders (s : State) : List (BitVec 48 × Bool × Byte × Nat) :=
  ((s.hif.rings.flatMap (·.taken)).filter fun t => (t.op == 0x60 || t.op == 0x30) && !t.started && orderRefused s t).foldl (fun l t => l.erase t.orderNote) s.side.orders

/-- Whether a host order of one of the kinds has a tick, and a value below `v` where one is asked for. -/
def hostOrderAt (s : State) (tick : BitVec 48) (kinds : List Byte) (v : Nat) : Bool :=
  (soundOrders s).any fun o => o.1 == tick && o.2.1 && kinds.contains o.2.2.1 && decide (o.2.2.2 < v)

/-- The order of a POWER_SET. -/
def powerSetOrder (m : KMsg) : Order := ⟨(stateOfCode (byteAt m.body 0)).getD .run, BitVec.ofNat 32 (fieldBytes m.body 1 4), .side m.src, m.tick, none⟩

/-- A POWER_SET decided: of two orders of one tick the lower state wins; else it is applied or kept by R346, and LASTORD tells which (R399) (DEDUCED, log entry 28). -/
def applyPowerSet (s : State) (m : KMsg) : State :=
  if hostOrderAt s m.tick [0] (byteAt m.body 0) then respond (setLastOrd s 4) m .yielded
  else respond (applyOrder s (powerSetOrder m)) m (if overridden s then .yielded else .ok)

/-- POWER_SET, after a RESET of an earlier tick (R398). -/
def execPowerSet (src : Byte) (s : State) : Out :=
  match s.kmsg src 0x10 with
  | some m => if earlierSide s m.tick [0x13] then ok s else ok (applyPowerSet s m)
  | none => ok s

/-- BLANK: admission stops and every front light goes low, or the hold is lifted (R397), in tick order (R398). -/
def execBlank (src : Byte) (s : State) : Out :=
  match s.kmsg src 0x11 with
  | none => ok s
  | some m =>
    if earlierSide s m.tick [0x11] then ok s else
    let on := bitN (byteAt m.body 0) 0
    let s := { s with side := { s.side with blank := on } }
    ok (respond (if s.boot.mainOn then lightCheckAll s else s) m .ok)

/-- The courses of a mask. -/
def coursesOf (mask : Nat) : List Nat := (List.range 8).filter fun co => bitN mask co

/-- RAILS_OFF with SET = 1: the named courses go off at their milestones, their waiting power-ons are cancelled, and further ones are refused from then on; SET = 0 lifts the refusal, and a course is powered on when a span of it waits (R397). -/
def setRailsOff (s : State) (mask : Nat) (on : Bool) : State :=
  let old := s.side.railsOff.toNat
  if on then
    let s := (coursesOf mask).foldl (fun s co => requestOff (s.updCourse co fun c => { c with onWait := false, onAfter := false }) co true) s
    { s with side := { s.side with railsOff := BitVec.ofNat 8 (old ||| mask) } }
  else
    let s := { s with side := { s.side with railsOff := BitVec.ofNat 8 (old &&& (0xFF - mask)) } }
    (coursesOf (old &&& mask)).foldl (fun s co => s.updCourse co fun c => { c with autoOff := c.autoOff || c.rail == .off || c.rail == .falling }) s

/-- RAILS_OFF, in tick order (R398) (DEDUCED, log entry 28). -/
def execRailsOff (src : Byte) (s : State) : Out :=
  match s.kmsg src 0x12 with
  | none => ok s
  | some m => if earlierSide s m.tick [0x12] then ok s else ok (respond (setRailsOff s (byteAt m.body 0) (bitN (byteAt m.body 1) 0)) m .ok)

/-- RESET (R397): it yields to a host POWER or UPDATE of its tick, and to a VIN-fail or a thermal stop; during any other transition it is kept (R346). -/
def applyReset (s : State) (m : KMsg) : State :=
  if hostOrderAt s m.tick [0, 1] 256 || overridden s then respond s m .yielded
  else if inTransition s then keepReset s m
  else resetNow s m

/-- KWAVIS_RESET, after the power orders of earlier ticks (R398) (DEDUCED, log entry 28). -/
def execKwavisReset (src : Byte) (s : State) : Out :=
  match s.kmsg src 0x13 with
  | some m => if earlierSide s m.tick [0x10, 0x13] then ok s else ok (applyReset s m)
  | none => ok s

/-! Firmware (R397) -/

/-- The image that is not running. -/
def otherImage (s : State) : Bool := !s.boot.fwB

/-- FW_STAGE, by a mover (R345, R385): bytes into the image that is not running (DESIGN CHOICE, log entry 29). -/
def execFwStage (src : Byte) (s : State) : Out :=
  match s.kmsg src 0x20 with
  | none => ok s
  | some m => ok (needsMain s m true fun s => if transferWaits s then s else respond (ssPut (leaveIdle s).useXspi 5 3 (fwBase (otherImage s) + fieldBytes m.body 0 4 / 2) (wordsOfBytes (m.body.drop 4))) m .ok)

/-- An image that passes is marked for WM05 at the next start, whose memory clears (R405, R408); in SAFE-FW a cold start follows (Table 15.3). -/
def commitImage (s : State) (m : KMsg) : State :=
  let b := otherImage s
  let s := { s with boot := { s.boot with meth := s.boot.meth.set 5 0 } }
  let s := respond (writeDir s false fun ws => clearMem [5] (setFlag 0 b ws)) m .ok
  if s.boot.outcome = .safeFw then stopAndJournal s 6 else s

/-- FW_COMMIT: the staged image of LENGTH bytes is verified (R397, R411) (DEDUCED, log entry 28). -/
def execFwCommit (src : Byte) (s : State) : Out :=
  match s.kmsg src 0x21 with
  | none => ok s
  | some m =>
    ok (needsMain s m true fun s =>
      if fwCheck s (otherImage s) (some (fieldBytes m.body 0 4)) then commitImage s m
      else respond (logEv s 0xA001 .action 0) m .checkFailed)

/-! Keys and sensors -/

/-- KEYS: the key states and the FIFO's entries, which POP removes (R396). -/
def execKeys (src : Byte) (s : State) : Out :=
  match s.kmsg src 0x30 with
  | none => ok s
  | some m =>
    let l := s.aon.fifo
    let s := if bitN (byteAt m.body 0) 0 then { s with aon := { s.aon with fifo := [] } } else s
    ok (respond s m .ok (bytesOfNat 8 (s.reg Reg.AON_KEYS 4) ++ bytesOfNat 1 l.length ++ bytesOfWords l))

/-- SENSORS' body (Table 14.4). -/
def sensorsBody (s : State) : List Byte :=
  let live := staleWords s
  let v (i : Nat) : Nat := valueOr s (staleMeasured s) i (wordAt live i)
  (List.range 4).flatMap (fun i => bytesOfNat 2 (s.reg (Reg.AON_AIN + i))) ++ bytesOfNat 2 (v 0) ++ bytesOfNat 2 (v 2) ++ bytesOfNat 2 (v 3) ++ bytesOfNat 2 (v 1) ++
    (List.range 4).flatMap (fun i => bytesOfNat 2 (s.reg (Reg.AON_CAL + i))) ++ bytesOfNat 1 (b2n (staleMeasured s))

/-- SENSORS (R394). -/
def execSensors (src : Byte) (s : State) : Out :=
  match s.kmsg src 0x31 with
  | some m => ok (respond s m .ok (sensorsBody s))
  | none => ok s

end Sys2Proof.Machine
end

