-- ==== Sys2Proof/Machine/Dispatch.lean ====
section
/-! DEFINITION. The meaning of each command: one arm for each constructor of Instr, in the order of the operation table. -/
namespace Sys2Proof.Machine
open Sys2Proof

/-- The effect of a command on everything but the queue of waiting commands. -/
def exec (i : Instr) (s : State) : Host.Outcome State Fault Refusal :=
  match i with
  | .registerWrite w => Sys2Proof.Machine.execRegisterWrite w s
  | .descriptorWrite c d w v => Sys2Proof.Machine.execDescriptorWrite c d w v s
  | .vissue c cond q => Sys2Proof.Machine.execVissue c cond q s
  | .vissuex c cond q n step => Sys2Proof.Machine.execVissuex c cond q n step s
  | .vpoll c cond q => Sys2Proof.Machine.execVpoll c cond q s
  | .vfence c cond q => Sys2Proof.Machine.execVfence c cond q s
  | .commandFetch q => Sys2Proof.Machine.execCommandFetch q s
  | .segmentRun p => Sys2Proof.Machine.execSegmentRun p s
  | .waveCommit q => Sys2Proof.Machine.execWaveCommit q s
  | .commandComplete q => Sys2Proof.Machine.execCommandComplete q s
  | .queueFlush q => Sys2Proof.Machine.execQueueFlush q s
  | .queueRestart q => Sys2Proof.Machine.execQueueRestart q s
  | .queuePause q on => Sys2Proof.Machine.execQueuePause q on s
  | .pipeError p => Sys2Proof.Machine.execPipeError p s
  | .pipeBuiltinTestDone p pass => Sys2Proof.Machine.execPipeBuiltinTestDone p pass s
  | .frameTableBuilt b => Sys2Proof.Machine.execFrameTableBuilt b s
  | .temperatureReadingStale p => Sys2Proof.Machine.execTemperatureReadingStale p s
  | .update r cid => Sys2Proof.Machine.execUpdate r cid s
  | .admitWaitingRequest r => Sys2Proof.Machine.execAdmitWaitingRequest r s
  | .cancel r cid => Sys2Proof.Machine.execCancel r cid s
  | .hold r cid => Sys2Proof.Machine.execHold r cid s
  | .resume r cid => Sys2Proof.Machine.execResume r cid s
  | .targetDurable rid => Sys2Proof.Machine.execTargetDurable rid s
  | .spliceWritesDurable rid => Sys2Proof.Machine.execSpliceWritesDurable rid s
  | .closeWriteDurable rid => Sys2Proof.Machine.execCloseWriteDurable rid s
  | .planningPoint co => Sys2Proof.Machine.execPlanningPoint co s
  | .spanStarved rid => Sys2Proof.Machine.execSpanStarved rid s
  | .courseFrameStart co => Sys2Proof.Machine.execCourseFrameStart co s
  | .courseFrameReconcile co railUj driveUj heatUj => Sys2Proof.Machine.execCourseFrameReconcile co railUj driveUj heatUj s
  | .writeBackCommitted rid => Sys2Proof.Machine.execWriteBackCommitted rid s
  | .bucketRefill => Sys2Proof.Machine.execBucketRefill s
  | .tollAudit => Sys2Proof.Machine.execTollAudit s
  | .heatRateLower => Sys2Proof.Machine.execHeatRateLower s
  | .heatRateRaise => Sys2Proof.Machine.execHeatRateRaise s
  | .lostLinkTimeout p => Sys2Proof.Machine.execLostLinkTimeout p s
  | .vinFail src vin => Sys2Proof.Machine.execVinFail src vin s
  | .vinFailCreditWaitEnd => Sys2Proof.Machine.execVinFailCreditWaitEnd s
  | .journalSlotDurable => Sys2Proof.Machine.execJournalSlotDurable s
  | .holdUpEnd vinBack => Sys2Proof.Machine.execHoldUpEnd vinBack s
  | .stateStoreWriteDone ch ok => Sys2Proof.Machine.execStateStoreWriteDone ch ok s
  | .hbmPatrol found => Sys2Proof.Machine.execHbmPatrol found s
  | .vsScrub found => Sys2Proof.Machine.execVsScrub found s
  | .migrationDone unreadable => Sys2Proof.Machine.execMigrationDone unreadable s
  | .spareBankCopyDone => Sys2Proof.Machine.execSpareBankCopyDone s
  | .coreRelease c role => Sys2Proof.Machine.execCoreRelease c role s
  | .interruptTaken c => Sys2Proof.Machine.execInterruptTaken c s
  | .farLoadData c refused => Sys2Proof.Machine.execFarLoadData c refused s
  | .postedStorePerformed c => Sys2Proof.Machine.execPostedStorePerformed c s
  | .lateBusError c store ring poisoned refused addr => Sys2Proof.Machine.execLateBusError c store ring poisoned refused addr s
  | .timerCompareMatch c n => Sys2Proof.Machine.execTimerCompareMatch c n s
  | .decodeEntryWrite c k w1 => Sys2Proof.Machine.execDecodeEntryWrite c k w1 s
  | .microcodeStepWrite c v => Sys2Proof.Machine.execMicrocodeStepWrite c v s
  | .customerInstruction c cond k imm => Sys2Proof.Machine.execCustomerInstruction c cond k imm s
  | .illegalInstruction c w0 w1 => Sys2Proof.Machine.execIllegalInstruction c w0 w1 s
  | .nop c cond => Sys2Proof.Machine.execNop c cond s
  | .dup c cond => Sys2Proof.Machine.execDup c cond s
  | .drop c cond => Sys2Proof.Machine.execDrop c cond s
  | .swap c cond => Sys2Proof.Machine.execSwap c cond s
  | .over c cond => Sys2Proof.Machine.execOver c cond s
  | .rot c cond => Sys2Proof.Machine.execRot c cond s
  | .nip c cond => Sys2Proof.Machine.execNip c cond s
  | .tuck c cond => Sys2Proof.Machine.execTuck c cond s
  | .dup2 c cond => Sys2Proof.Machine.execDup2 c cond s
  | .drop2 c cond => Sys2Proof.Machine.execDrop2 c cond s
  | .swap2 c cond => Sys2Proof.Machine.execSwap2 c cond s
  | .over2 c cond => Sys2Proof.Machine.execOver2 c cond s
  | .pick c cond k => Sys2Proof.Machine.execPick c cond k s
  | .toa c cond n => Sys2Proof.Machine.execToa c cond n s
  | .froma c cond n => Sys2Proof.Machine.execFroma c cond n s
  | .psh c cond v => Sys2Proof.Machine.execPsh c cond v s
  | .ldh c cond v => Sys2Proof.Machine.execLdh c cond v s
  | .pshw c cond imm => Sys2Proof.Machine.execPshw c cond imm s
  | .add c cond w => Sys2Proof.Machine.execAdd c cond w s
  | .adc c cond w => Sys2Proof.Machine.execAdc c cond w s
  | .sub c cond w => Sys2Proof.Machine.execSub c cond w s
  | .sbc c cond w => Sys2Proof.Machine.execSbc c cond w s
  | .cmp c cond w => Sys2Proof.Machine.execCmp c cond w s
  | .neg c cond w => Sys2Proof.Machine.execNeg c cond w s
  | .inc c cond w => Sys2Proof.Machine.execInc c cond w s
  | .dcr c cond w => Sys2Proof.Machine.execDcr c cond w s
  | .and c cond w => Sys2Proof.Machine.execAnd c cond w s
  | .or c cond w => Sys2Proof.Machine.execOr c cond w s
  | .xor c cond w => Sys2Proof.Machine.execXor c cond w s
  | .andn c cond w => Sys2Proof.Machine.execAndn c cond w s
  | .not c cond w => Sys2Proof.Machine.execNot c cond w s
  | .tst c cond w => Sys2Proof.Machine.execTst c cond w s
  | .mins c cond w => Sys2Proof.Machine.execMins c cond w s
  | .maxs c cond w => Sys2Proof.Machine.execMaxs c cond w s
  | .minu c cond w => Sys2Proof.Machine.execMinu c cond w s
  | .maxu c cond w => Sys2Proof.Machine.execMaxu c cond w s
  | .abs c cond w => Sys2Proof.Machine.execAbs c cond w s
  | .exts c cond => Sys2Proof.Machine.execExts c cond s
  | .extz c cond => Sys2Proof.Machine.execExtz c cond s
  | .aluiAdd c cond w imm => Sys2Proof.Machine.execAluiAdd c cond w imm s
  | .aluiAdc c cond w imm => Sys2Proof.Machine.execAluiAdc c cond w imm s
  | .aluiSub c cond w imm => Sys2Proof.Machine.execAluiSub c cond w imm s
  | .aluiSbc c cond w imm => Sys2Proof.Machine.execAluiSbc c cond w imm s
  | .aluiCmp c cond w imm => Sys2Proof.Machine.execAluiCmp c cond w imm s
  | .aluiAnd c cond w imm => Sys2Proof.Machine.execAluiAnd c cond w imm s
  | .aluiOr c cond w imm => Sys2Proof.Machine.execAluiOr c cond w imm s
  | .aluiXor c cond w imm => Sys2Proof.Machine.execAluiXor c cond w imm s
  | .shl c cond n => Sys2Proof.Machine.execShl c cond n s
  | .shr c cond n => Sys2Proof.Machine.execShr c cond n s
  | .sar c cond n => Sys2Proof.Machine.execSar c cond n s
  | .rol c cond n => Sys2Proof.Machine.execRol c cond n s
  | .shlD c cond n => Sys2Proof.Machine.execShlD c cond n s
  | .shrD c cond n => Sys2Proof.Machine.execShrD c cond n s
  | .sarD c cond n => Sys2Proof.Machine.execSarD c cond n s
  | .rolD c cond n => Sys2Proof.Machine.execRolD c cond n s
  | .mul c cond => Sys2Proof.Machine.execMul c cond s
  | .muls c cond => Sys2Proof.Machine.execMuls c cond s
  | .mul32 c cond => Sys2Proof.Machine.execMul32 c cond s
  | .div c cond => Sys2Proof.Machine.execDiv c cond s
  | .divs c cond => Sys2Proof.Machine.execDivs c cond s
  | .rem c cond => Sys2Proof.Machine.execRem c cond s
  | .dadd c cond w => Sys2Proof.Machine.execDadd c cond w s
  | .dadc c cond w => Sys2Proof.Machine.execDadc c cond w s
  | .dsub c cond w => Sys2Proof.Machine.execDsub c cond w s
  | .dsbc c cond w => Sys2Proof.Machine.execDsbc c cond w s
  | .dneg c cond w => Sys2Proof.Machine.execDneg c cond w s
  | .dcmp c cond w => Sys2Proof.Machine.execDcmp c cond w s
  | .cvtbd c cond w => Sys2Proof.Machine.execCvtbd c cond w s
  | .cvtdb c cond w => Sys2Proof.Machine.execCvtdb c cond w s
  | .btst c cond n => Sys2Proof.Machine.execBtst c cond n s
  | .bset c cond n => Sys2Proof.Machine.execBset c cond n s
  | .bclr c cond n => Sys2Proof.Machine.execBclr c cond n s
  | .binv c cond n => Sys2Proof.Machine.execBinv c cond n s
  | .brev c cond n => Sys2Proof.Machine.execBrev c cond n s
  | .popc c cond => Sys2Proof.Machine.execPopc c cond s
  | .clz c cond => Sys2Proof.Machine.execClz c cond s
  | .par c cond => Sys2Proof.Machine.execPar c cond s
  | .pard c cond => Sys2Proof.Machine.execPard c cond s
  | .crc8 c cond => Sys2Proof.Machine.execCrc8 c cond s
  | .crc16 c cond => Sys2Proof.Machine.execCrc16 c cond s
  | .crc32 c cond => Sys2Proof.Machine.execCrc32 c cond s
  | .crci c cond n imm => Sys2Proof.Machine.execCrci c cond n imm s
  | .ld c cond n p off => Sys2Proof.Machine.execLd c cond n p off s
  | .st c cond n p off => Sys2Proof.Machine.execSt c cond n p off s
  | .ldd c cond n p off => Sys2Proof.Machine.execLdd c cond n p off s
  | .std c cond n p off => Sys2Proof.Machine.execStd c cond n p off s
  | .argLoad c cond k => Sys2Proof.Machine.execArgLoad c cond k s
  | .argStore c cond k => Sys2Proof.Machine.execArgStore c cond k s
  | .ldx c cond n p off => Sys2Proof.Machine.execLdx c cond n p off s
  | .stx c cond n p off => Sys2Proof.Machine.execStx c cond n p off s
  | .lddx c cond n p off => Sys2Proof.Machine.execLddx c cond n p off s
  | .stdx c cond n p off => Sys2Proof.Machine.execStdx c cond n p off s
  | .adda c cond n imm => Sys2Proof.Machine.execAdda c cond n imm s
  | .setam c cond n imm => Sys2Proof.Machine.execSetam c cond n imm s
  | .br c cond off => Sys2Proof.Machine.execBr c cond off s
  | .dbnz c cond off => Sys2Proof.Machine.execDbnz c cond off s
  | .brl c cond imm => Sys2Proof.Machine.execBrl c cond imm s
  | .dbnzl c cond imm => Sys2Proof.Machine.execDbnzl c cond imm s
  | .jmpa c cond imm => Sys2Proof.Machine.execJmpa c cond imm s
  | .rep c cond n => Sys2Proof.Machine.execRep c cond n s
  | .repl c cond imm => Sys2Proof.Machine.execRepl c cond imm s
  | .call c cond m imm => Sys2Proof.Machine.execCall c cond m imm s
  | .calla c cond m imm => Sys2Proof.Machine.execCalla c cond m imm s
  | .ret c cond m => Sys2Proof.Machine.execRet c cond m s
  | .callg c cond imm => Sys2Proof.Machine.execCallg c cond imm s
  | .retx c cond => Sys2Proof.Machine.execRetx c cond s
  | .trap c cond n => Sys2Proof.Machine.execTrap c cond n s
  | .trapl c cond imm => Sys2Proof.Machine.execTrapl c cond imm s
  | .synci c cond => Sys2Proof.Machine.execSynci c cond s
  | .wait c cond => Sys2Proof.Machine.execWait c cond s
  | .cli c cond => Sys2Proof.Machine.execCli c cond s
  | .sti c cond => Sys2Proof.Machine.execSti c cond s
  | .halt c cond => Sys2Proof.Machine.execHalt c cond s
  | .mtc c cond imm => Sys2Proof.Machine.execMtc c cond imm s
  | .mfc c cond imm => Sys2Proof.Machine.execMfc c cond imm s
  | .fadd c cond fs => Sys2Proof.Machine.execFadd c cond fs s
  | .fsub c cond fs => Sys2Proof.Machine.execFsub c cond fs s
  | .fmul c cond fs => Sys2Proof.Machine.execFmul c cond fs s
  | .fdiv c cond fs => Sys2Proof.Machine.execFdiv c cond fs s
  | .fsqrt c cond => Sys2Proof.Machine.execFsqrt c cond s
  | .fma c cond => Sys2Proof.Machine.execFma c cond s
  | .fmin c cond fs => Sys2Proof.Machine.execFmin c cond fs s
  | .fmax c cond fs => Sys2Proof.Machine.execFmax c cond fs s
  | .fabs c cond fs => Sys2Proof.Machine.execFabs c cond fs s
  | .fneg c cond fs => Sys2Proof.Machine.execFneg c cond fs s
  | .fcmp c cond fs => Sys2Proof.Machine.execFcmp c cond fs s
  | .cvtSH c cond => Sys2Proof.Machine.execCvtSH c cond s
  | .cvtHS c cond => Sys2Proof.Machine.execCvtHS c cond s
  | .cvtSW c cond => Sys2Proof.Machine.execCvtSW c cond s
  | .cvtWS c cond => Sys2Proof.Machine.execCvtWS c cond s
  | .cvtSI c cond => Sys2Proof.Machine.execCvtSI c cond s
  | .cvtIS c cond => Sys2Proof.Machine.execCvtIS c cond s
  | .cvtHW c cond => Sys2Proof.Machine.execCvtHW c cond s
  | .cvtWH c cond => Sys2Proof.Machine.execCvtWH c cond s
  | .fbar c cond => Sys2Proof.Machine.execFbar c cond s
  | .fpiAdd c cond fs imm => Sys2Proof.Machine.execFpiAdd c cond fs imm s
  | .fpiSub c cond fs imm => Sys2Proof.Machine.execFpiSub c cond fs imm s
  | .fpiMul c cond fs imm => Sys2Proof.Machine.execFpiMul c cond fs imm s
  | .fpiCmp c cond fs imm => Sys2Proof.Machine.execFpiCmp c cond fs imm s
  | .fpiMin c cond fs imm => Sys2Proof.Machine.execFpiMin c cond fs imm s
  | .fpiMax c cond fs imm => Sys2Proof.Machine.execFpiMax c cond fs imm s
  | .ldr c cond b => Sys2Proof.Machine.execLdr c cond b s
  | .str c cond b => Sys2Proof.Machine.execStr c cond b s
  | .ldrx c cond b off => Sys2Proof.Machine.execLdrx c cond b off s
  | .strx c cond b off => Sys2Proof.Machine.execStrx c cond b off s
  | .streamPacketSend p => Sys2Proof.Machine.execStreamPacketSend p s
  | .credit p acked done limit => Sys2Proof.Machine.execCredit p acked done limit s
  | .eventNak p arg => Sys2Proof.Machine.execEventNak p arg s
  | .eventProtocolError p sseq => Sys2Proof.Machine.execEventProtocolError p sseq s
  | .eventOverrun p sseq => Sys2Proof.Machine.execEventOverrun p sseq s
  | .eventDriverFault p line => Sys2Proof.Machine.execEventDriverFault p line s
  | .status p temp stretch sftag flags lerr0 lerr1 sinceMs => Sys2Proof.Machine.execStatus p temp stretch sftag flags lerr0 lerr1 sinceMs s
  | .readData p tag rstat data => Sys2Proof.Machine.execReadData p tag rstat data s
  | .idleSetsReceived p => Sys2Proof.Machine.execIdleSetsReceived p s
  | .pong p lock0 lock1 ptag buf bootcnt version rttNs => Sys2Proof.Machine.execPong p lock0 lock1 ptag buf bootcnt version rttNs s
  | .pingTimer p => Sys2Proof.Machine.execPingTimer p s
  | .configTimeout p => Sys2Proof.Machine.execConfigTimeout p s
  | .retrainTimeout p => Sys2Proof.Machine.execRetrainTimeout p s
  | .symbolLockLost p => Sys2Proof.Machine.execSymbolLockLost p s
  | .replayTimeout p => Sys2Proof.Machine.execReplayTimeout p s
  | .creditTimeout p => Sys2Proof.Machine.execCreditTimeout p s
  | .transactionRetry p tag => Sys2Proof.Machine.execTransactionRetry p tag s
  | .transactionBusyRetry p tag => Sys2Proof.Machine.execTransactionBusyRetry p tag s
  | .portRetrain p => Sys2Proof.Machine.execPortRetrain p s
  | .lifeWriteNow p => Sys2Proof.Machine.execLifeWriteNow p s
  | .lifeWritePeriod => Sys2Proof.Machine.execLifeWritePeriod s
  | .lightSecond => Sys2Proof.Machine.execLightSecond s
  | .slateAttach p d => Sys2Proof.Machine.execSlateAttach p d s
  | .authPoll p flag sig => Sys2Proof.Machine.execAuthPoll p flag sig s
  | .coursePowerOn co => Sys2Proof.Machine.execCoursePowerOn co s
  | .coursePowerOff co => Sys2Proof.Machine.execCoursePowerOff co s
  | .powerOnStart co => Sys2Proof.Machine.execPowerOnStart co s
  | .railPowerGood co rail => Sys2Proof.Machine.execRailPowerGood co rail s
  | .powerOnStepTimeout co => Sys2Proof.Machine.execPowerOnStepTimeout co s
  | .powerOffStart co => Sys2Proof.Machine.execPowerOffStart co s
  | .railFault co cause rail => Sys2Proof.Machine.execRailFault co cause rail s
  | .faultRetry co => Sys2Proof.Machine.execFaultRetry co s
  | .idleoffTimeout co => Sys2Proof.Machine.execIdleoffTimeout co s
  | .loopMeasurement readings => Sys2Proof.Machine.execLoopMeasurement readings s
  | .loopcrackClear p => Sys2Proof.Machine.execLoopcrackClear p s
  | .loopmaskWrite p on => Sys2Proof.Machine.execLoopmaskWrite p on s
  | .frontLightEnable co => Sys2Proof.Machine.execFrontLightEnable co s
  | .frontLightPwmStart co => Sys2Proof.Machine.execFrontLightPwmStart co s
  | .frontLightDisable co => Sys2Proof.Machine.execFrontLightDisable co s
  | .power r cid => Sys2Proof.Machine.execPower r cid s
  | .idleEntry => Sys2Proof.Machine.execIdleEntry s
  | .dozeAutoTimer => Sys2Proof.Machine.execDozeAutoTimer s
  | .dozeEntry => Sys2Proof.Machine.execDozeEntry s
  | .dozeExit src => Sys2Proof.Machine.execDozeExit src s
  | .sleepEntry => Sys2Proof.Machine.execSleepEntry s
  | .wakeFromSleep src => Sys2Proof.Machine.execWakeFromSleep src s
  | .wakeTimerExpiry n => Sys2Proof.Machine.execWakeTimerExpiry n s
  | .calendarSecond => Sys2Proof.Machine.execCalendarSecond s
  | .calendarWrite w0 w1 w2 w3 => Sys2Proof.Machine.execCalendarWrite w0 w1 w2 w3 s
  | .crystalCheck running => Sys2Proof.Machine.execCrystalCheck running s
  | .keyScan matrix => Sys2Proof.Machine.execKeyScan matrix s
  | .keyfifoRead c => Sys2Proof.Machine.execKeyfifoRead c s
  | .analogSample c0 c1 c2 c3 => Sys2Proof.Machine.execAnalogSample c0 c1 c2 c3 s
  | .vinRestored vin => Sys2Proof.Machine.execVinRestored vin s
  | .thermalSample temps hbm0 hbm1 railTemp => Sys2Proof.Machine.execThermalSample temps hbm0 hbm1 railTemp s
  | .heatRateUpdate => Sys2Proof.Machine.execHeatRateUpdate s
  | .orderlyStopDeadline => Sys2Proof.Machine.execOrderlyStopDeadline s
  | .coolDownExpiry => Sys2Proof.Machine.execCoolDownExpiry s
  | .clockIdleStop clk => Sys2Proof.Machine.execClockIdleStop clk s
  | .vstbyValid straps => Sys2Proof.Machine.execVstbyValid straps s
  | .vstbyRemoved => Sys2Proof.Machine.execVstbyRemoved s
  | .sqTailDoorbell r tail => Sys2Proof.Machine.execSqTailDoorbell r tail s
  | .cqHeadDoorbell r head => Sys2Proof.Machine.execCqHeadDoorbell r head s
  | .ringEnable r => Sys2Proof.Machine.execRingEnable r s
  | .ringDisable r => Sys2Proof.Machine.execRingDisable r s
  | .submissionEntryTake r entry => Sys2Proof.Machine.execSubmissionEntryTake r entry s
  | .cqCoalesceTimer r => Sys2Proof.Machine.execCqCoalesceTimer r s
  | .pcieReset kind => Sys2Proof.Machine.execPcieReset kind s
  | .bar2Write off data => Sys2Proof.Machine.execBar2Write off data s
  | .bar2Read off len => Sys2Proof.Machine.execBar2Read off len s
  | .dmaChunkDone m hostErr data => Sys2Proof.Machine.execDmaChunkDone m hostErr data s
  | .nopCommand r cid => Sys2Proof.Machine.execNopCommand r cid s
  | .fence r cid => Sys2Proof.Machine.execFence r cid s
  | .load r cid => Sys2Proof.Machine.execLoad r cid s
  | .store r cid => Sys2Proof.Machine.execStore r cid s
  | .render r cid => Sys2Proof.Machine.execRender r cid s
  | .modeLoad r cid hostErr data => Sys2Proof.Machine.execModeLoad r cid hostErr data s
  | .overlaySet r cid hostErr data => Sys2Proof.Machine.execOverlaySet r cid hostErr data s
  | .vector r cid => Sys2Proof.Machine.execVector r cid s
  | .vectorPushRetry r cid => Sys2Proof.Machine.execVectorPushRetry r cid s
  | .query r cid hostErr => Sys2Proof.Machine.execQuery r cid hostErr s
  | .life r cid hostErr => Sys2Proof.Machine.execLife r cid hostErr s
  | .planStage r cid hostErr data => Sys2Proof.Machine.execPlanStage r cid hostErr data s
  | .planSwap r cid => Sys2Proof.Machine.execPlanSwap r cid s
  | .swapPoint => Sys2Proof.Machine.execSwapPoint s
  | .smbusPacket src som eom seq tag pecOk countOk hdrOk bytes => Sys2Proof.Machine.execSmbusPacket src som eom seq tag pecOk countOk hdrOk bytes s
  | .messageReassemblyTimeout src tag => Sys2Proof.Machine.execMessageReassemblyTimeout src tag s
  | .alertResponseAddressRead won => Sys2Proof.Machine.execAlertResponseAddressRead won s
  | .setEndpointId src op eid => Sys2Proof.Machine.execSetEndpointId src op eid s
  | .getEndpointId src => Sys2Proof.Machine.execGetEndpointId src s
  | .getEndpointUuid src => Sys2Proof.Machine.execGetEndpointUuid src s
  | .getMctpVersionSupport src msgType => Sys2Proof.Machine.execGetMctpVersionSupport src msgType s
  | .getMessageTypeSupport src => Sys2Proof.Machine.execGetMessageTypeSupport src s
  | .getVendorDefinedMessageSupport src selector => Sys2Proof.Machine.execGetVendorDefinedMessageSupport src selector s
  | .health src => Sys2Proof.Machine.execHealth src s
  | .events src => Sys2Proof.Machine.execEvents src s
  | .waymarks src => Sys2Proof.Machine.execWaymarks src s
  | .kwavisLife src => Sys2Proof.Machine.execKwavisLife src s
  | .powerSet src => Sys2Proof.Machine.execPowerSet src s
  | .blank src => Sys2Proof.Machine.execBlank src s
  | .railsOff src => Sys2Proof.Machine.execRailsOff src s
  | .kwavisReset src => Sys2Proof.Machine.execKwavisReset src s
  | .fwStage src => Sys2Proof.Machine.execFwStage src s
  | .fwCommit src => Sys2Proof.Machine.execFwCommit src s
  | .keys src => Sys2Proof.Machine.execKeys src s
  | .sensors src => Sys2Proof.Machine.execSensors src s
  | .resetNAsserted => Sys2Proof.Machine.execResetNAsserted s
  | .resetNReleased => Sys2Proof.Machine.execResetNReleased s
  | .sysRstWarm c => Sys2Proof.Machine.execSysRstWarm c s
  | .sysRstCold c => Sys2Proof.Machine.execSysRstCold c s
  | .mainDomainStart => Sys2Proof.Machine.execMainDomainStart s
  | .waymarkEnd wm pass units => Sys2Proof.Machine.execWaymarkEnd wm pass units s
  | .waymarkTimeout wm => Sys2Proof.Machine.execWaymarkTimeout wm s
  | .safeRetryTimer => Sys2Proof.Machine.execSafeRetryTimer s
  | .mainPgRise => Sys2Proof.Machine.execMainPgRise s
  | .mainPgFall => Sys2Proof.Machine.execMainPgFall s
  | .waymarkMemoryClear => Sys2Proof.Machine.execWaymarkMemoryClear s
  | .calibrationSave => Sys2Proof.Machine.execCalibrationSave s
  | .calibrationFactory => Sys2Proof.Machine.execCalibrationFactory s
  | .sha256 => Sys2Proof.Machine.execSha256 s
  | .sha384 => Sys2Proof.Machine.execSha384 s
  | .verifyP256 => Sys2Proof.Machine.execVerifyP256 s
  | .verifyP384 => Sys2Proof.Machine.execVerifyP384 s
  | .secCommandDone => Sys2Proof.Machine.execSecCommandDone s
  | .keyRevoke slot => Sys2Proof.Machine.execKeyRevoke slot s
  | .rngRead => Sys2Proof.Machine.execRngRead s
  | .heartbeat n => Sys2Proof.Machine.execHeartbeat n s
  | .roleLate n => Sys2Proof.Machine.execRoleLate n s
  | .roleMove n => Sys2Proof.Machine.execRoleMove n s
  | .aocHeartbeatTimeout => Sys2Proof.Machine.execAocHeartbeatTimeout s
  | .errorReport code sev blk unit a0 a1 a2 a3 => Sys2Proof.Machine.execErrorReport code sev blk unit a0 a1 a2 a3 s
  | .errorQueuePop => Sys2Proof.Machine.execErrorQueuePop s
  | .eventLogged code sev blk unit a0 a1 a2 a3 => Sys2Proof.Machine.execEventLogged code sev blk unit a0 a1 a2 a3 s
  | .eventLogWrite => Sys2Proof.Machine.execEventLogWrite s
  | .eventLogClear => Sys2Proof.Machine.execEventLogClear s
  | .requestAudit => Sys2Proof.Machine.execRequestAudit s
  | .pcieLinkUp speed width => Sys2Proof.Machine.execPcieLinkUp speed width s
  | .bar0Read byteOff ndw => Sys2Proof.Machine.execBar0Read byteOff ndw s
  | .railDischarged co => Sys2Proof.Machine.execRailDischarged co s
  | .corruptedUpstreamPacket p packet => Sys2Proof.Machine.execCorruptedUpstreamPacket p packet s
  | .pwmPeriodStart co => Sys2Proof.Machine.execPwmPeriodStart co s

end Sys2Proof.Machine
end

