-- ==== Sys2Proof/Machine/Tick.lean ====
section
/-! DEFINITION. What passes when no command waits: one count of the 100 MHz reference. -/
namespace Sys2Proof.Machine
open Sys2Proof

/-- A wake timer that runs counts one AON tick; at 0 it expires (R352, R353). -/
def countTimer (s : State) (n : Fin 2) : State :=
  match s.reg (Reg.AON_WT + 2 * n.val) 2 with
  | 0 => s
  | 1 => wakeTimer s n
  | v => s.regSet (Reg.AON_WT + 2 * n.val) (v - 1) 2

/-- The waits for credits of fault paths that have lasted 200 µs end (R328). -/
def endWaits (s : State) : State :=
  (List.range 8).foldl (fun s co => match (s.course co).waitAt with
    | some t => if t.toNat + 20000 ≤ s.time.toNat then endCreditWait s co else s
    | none => s) s

/-- The 100 µs from the rise of MAIN_PG pass, after which the main domain's signal balls are driven (R451). -/
def countBalls (s : State) : State := if s.boot.mainPg then { s with boot := { s.boot with hiZ := s.boot.hiZ - 1 } } else s

/-- What a tick adds to the calendar's fraction of a second, in millionths of a tick: corrected by AON_CALTRIM.PPM, which speeds the calendar up where it is positive (R353) (DESIGN CHOICE, log entry 40). -/
def calStep (s : State) : Nat := (1000000 + toSigned 8 (s.regF Reg.AON_CALTRIM 7 0)).toNat

/-- One AON tick: AON_TICK, the wake timers, and the calendar's second after 32,768 of them as corrected (R352, R353). -/
def aonTick (s : State) : State :=
  let s := { s with aon := { s.aon with tick := s.aon.tick + 1, tickFrac := s.aon.tickFrac + calStep s } }
  let s := countTimer (countTimer s 0) 1
  let f := s.aon.tickFrac
  if f < 32768000000 then s else let s := calendarSecond s; { s with aon := { s.aon with tickFrac := f - 32768000000 } }

/-- Whether the clocks of the main domain run (Table 12.6). -/
def mainClocks (s : State) : Bool := s.boot.mainOn && s.power.st != .doze

/-- One reference count of 10 ns: the device time base counts while the main domain's clocks run (R228, R356), each running core counts 10 cycles of its 1 GHz clock, those left out that its instructions have counted already, and the AON ticks 32,768 times a second (R352) (DESIGN CHOICE, log entry 3) (DEDUCED, log entry 14). -/
def tick (s : State) : State :=
  if !s.boot.vstby then s else
  let f := s.timeFrac + 32768
  let cores := s.cores.zipIdx.map fun (c, i) => if c.running ∧ !c.halted ∧ i < 17 then { c with cycle := c.cycle + BitVec.ofNat 64 (10 - c.ahead), ahead := c.ahead - 10 } else c
  let s := { s with timeFrac := f % 100000000, time := if mainClocks s then s.time + 1 else s.time, cores := if mainClocks s then cores else s.cores }
  let s := countBalls (endWaits s)
  if f < 100000000 then s else aonTick s

end Sys2Proof.Machine
end

