-- ==== Sys2Proof/Machine/Step.lean ====
section
/-! DEFINITION. The step: the command at the front of the queue takes effect; on an empty queue the clocks advance by one count of the 100 MHz reference. -/
namespace Sys2Proof.Machine
open Sys2Proof

/-- One step (DEDUCED, log entry 1) (DESIGN CHOICE, log entry 3) (DESIGN CHOICE, log entry 46) (DEDUCED, log entry 47). -/
def step (s : State) : Host.Outcome State Fault Refusal :=
  match s.pending with
  | [] => .next (tick s)
  | c :: rest => exec c { s with pending := rest }

/-- The state with the command that a word spells at the front of its queue; unchanged, since no word spells one (DESIGN CHOICE, log entry 4). -/
def State.withFetchWord (s : State) (nbits w : Nat) : State :=
  match decodeTableWord nbits w with
  | some c => { s with pending := c :: s.pending }
  | none => s

end Sys2Proof.Machine
end

