-- ==== Sys2Proof/WellFormed.lean ====
section
/-! DEFINITION. Which commands exist: the lengths of the lists they carry, and the conditions that a short instruction word can name (R211, R231). -/
namespace Sys2Proof

/-- The conditions that a short form can name: it has two condition bits (R211). -/
def Cond.short : Cond → Bool
  | .al | .z | .nz | .t => true
  | .c | .nc | .n | .nn | .v | .nv | .nt | .d | .lt | .ge | .hi => false

/-- Whether a command exists as it is written: a short instruction names a condition it has bits for; a slate's header is 256 bytes and its certificate 192 (Tables 10.9, 10.10); a signature is 64 bytes (R308); a submission entry is 64 bytes (R372); a loop measurement has a reading for each of 64 ports (R331); a thermal sample has a reading for each of 24 sensors (Table 12.7) (DESIGN CHOICE, log entry 11). -/
def Instr.wellFormed : Instr → Bool
  | .registerWrite _ => true
  | .descriptorWrite _ _ _ _ => true
  | .vissue _ cond _ => cond.short
  | .vissuex _ _ _ _ _ => true
  | .vpoll _ cond _ => cond.short
  | .vfence _ cond _ => cond.short
  | .commandFetch _ => true
  | .segmentRun _ => true
  | .waveCommit _ => true
  | .commandComplete _ => true
  | .queueFlush _ => true
  | .queueRestart _ => true
  | .queuePause _ _ => true
  | .pipeError _ => true
  | .pipeBuiltinTestDone _ _ => true
  | .frameTableBuilt _ => true
  | .temperatureReadingStale _ => true
  | .update _ _ => true
  | .admitWaitingRequest _ => true
  | .cancel _ _ => true
  | .hold _ _ => true
  | .resume _ _ => true
  | .targetDurable _ => true
  | .spliceWritesDurable _ => true
  | .closeWriteDurable _ => true
  | .planningPoint _ => true
  | .spanStarved _ => true
  | .courseFrameStart _ => true
  | .courseFrameReconcile _ _ _ _ => true
  | .writeBackCommitted _ => true
  | .bucketRefill => true
  | .tollAudit => true
  | .heatRateLower => true
  | .heatRateRaise => true
  | .lostLinkTimeout _ => true
  | .vinFail _ _ => true
  | .vinFailCreditWaitEnd => true
  | .journalSlotDurable => true
  | .holdUpEnd _ => true
  | .stateStoreWriteDone _ _ => true
  | .hbmPatrol _ => true
  | .vsScrub _ => true
  | .migrationDone _ => true
  | .spareBankCopyDone => true
  | .coreRelease _ _ => true
  | .interruptTaken _ => true
  | .farLoadData _ _ => true
  | .postedStorePerformed _ => true
  | .lateBusError _ _ _ _ _ _ => true
  | .timerCompareMatch _ _ => true
  | .decodeEntryWrite _ _ _ => true
  | .microcodeStepWrite _ _ => true
  | .customerInstruction _ cond k _ => decide (8 ≤ k.val) || cond.short
  | .illegalInstruction _ _ _ => true
  | .nop _ cond => cond.short
  | .dup _ cond => cond.short
  | .drop _ cond => cond.short
  | .swap _ cond => cond.short
  | .over _ cond => cond.short
  | .rot _ cond => cond.short
  | .nip _ cond => cond.short
  | .tuck _ cond => cond.short
  | .dup2 _ cond => cond.short
  | .drop2 _ cond => cond.short
  | .swap2 _ cond => cond.short
  | .over2 _ cond => cond.short
  | .pick _ cond _ => cond.short
  | .toa _ cond _ => cond.short
  | .froma _ cond _ => cond.short
  | .psh _ cond _ => cond.short
  | .ldh _ cond _ => cond.short
  | .pshw _ _ _ => true
  | .add _ cond _ => cond.short
  | .adc _ cond _ => cond.short
  | .sub _ cond _ => cond.short
  | .sbc _ cond _ => cond.short
  | .cmp _ cond _ => cond.short
  | .neg _ cond _ => cond.short
  | .inc _ cond _ => cond.short
  | .dcr _ cond _ => cond.short
  | .and _ cond _ => cond.short
  | .or _ cond _ => cond.short
  | .xor _ cond _ => cond.short
  | .andn _ cond _ => cond.short
  | .not _ cond _ => cond.short
  | .tst _ cond _ => cond.short
  | .mins _ cond _ => cond.short
  | .maxs _ cond _ => cond.short
  | .minu _ cond _ => cond.short
  | .maxu _ cond _ => cond.short
  | .abs _ cond _ => cond.short
  | .exts _ cond => cond.short
  | .extz _ cond => cond.short
  | .aluiAdd _ _ _ _ => true
  | .aluiAdc _ _ _ _ => true
  | .aluiSub _ _ _ _ => true
  | .aluiSbc _ _ _ _ => true
  | .aluiCmp _ _ _ _ => true
  | .aluiAnd _ _ _ _ => true
  | .aluiOr _ _ _ _ => true
  | .aluiXor _ _ _ _ => true
  | .shl _ cond _ => cond.short
  | .shr _ cond _ => cond.short
  | .sar _ cond _ => cond.short
  | .rol _ cond _ => cond.short
  | .shlD _ cond _ => cond.short
  | .shrD _ cond _ => cond.short
  | .sarD _ cond _ => cond.short
  | .rolD _ cond _ => cond.short
  | .mul _ cond => cond.short
  | .muls _ cond => cond.short
  | .mul32 _ cond => cond.short
  | .div _ cond => cond.short
  | .divs _ cond => cond.short
  | .rem _ cond => cond.short
  | .dadd _ cond _ => cond.short
  | .dadc _ cond _ => cond.short
  | .dsub _ cond _ => cond.short
  | .dsbc _ cond _ => cond.short
  | .dneg _ cond _ => cond.short
  | .dcmp _ cond _ => cond.short
  | .cvtbd _ cond _ => cond.short
  | .cvtdb _ cond _ => cond.short
  | .btst _ cond _ => cond.short
  | .bset _ cond _ => cond.short
  | .bclr _ cond _ => cond.short
  | .binv _ cond _ => cond.short
  | .brev _ cond _ => cond.short
  | .popc _ cond => cond.short
  | .clz _ cond => cond.short
  | .par _ cond => cond.short
  | .pard _ cond => cond.short
  | .crc8 _ cond => cond.short
  | .crc16 _ cond => cond.short
  | .crc32 _ cond => cond.short
  | .crci _ _ _ _ => true
  | .ld _ cond _ _ _ => cond.short
  | .st _ cond _ _ _ => cond.short
  | .ldd _ cond _ _ _ => cond.short
  | .std _ cond _ _ _ => cond.short
  | .argLoad _ cond _ => cond.short
  | .argStore _ cond _ => cond.short
  | .ldx _ _ _ _ _ => true
  | .stx _ _ _ _ _ => true
  | .lddx _ _ _ _ _ => true
  | .stdx _ _ _ _ _ => true
  | .adda _ _ _ _ => true
  | .setam _ _ _ _ => true
  | .br _ cond _ => cond.short
  | .dbnz _ cond _ => cond.short
  | .brl _ _ _ => true
  | .dbnzl _ _ _ => true
  | .jmpa _ _ _ => true
  | .rep _ cond _ => cond.short
  | .repl _ _ _ => true
  | .call _ _ _ _ => true
  | .calla _ _ _ _ => true
  | .ret _ cond _ => cond.short
  | .callg _ _ _ => true
  | .retx _ cond => cond.short
  | .trap _ cond _ => cond.short
  | .trapl _ _ _ => true
  | .synci _ cond => cond.short
  | .wait _ cond => cond.short
  | .cli _ cond => cond.short
  | .sti _ cond => cond.short
  | .halt _ cond => cond.short
  | .mtc _ _ _ => true
  | .mfc _ _ _ => true
  | .fadd _ cond _ => cond.short
  | .fsub _ cond _ => cond.short
  | .fmul _ cond _ => cond.short
  | .fdiv _ cond _ => cond.short
  | .fsqrt _ cond => cond.short
  | .fma _ cond => cond.short
  | .fmin _ cond _ => cond.short
  | .fmax _ cond _ => cond.short
  | .fabs _ cond _ => cond.short
  | .fneg _ cond _ => cond.short
  | .fcmp _ cond _ => cond.short
  | .cvtSH _ cond => cond.short
  | .cvtHS _ cond => cond.short
  | .cvtSW _ cond => cond.short
  | .cvtWS _ cond => cond.short
  | .cvtSI _ cond => cond.short
  | .cvtIS _ cond => cond.short
  | .cvtHW _ cond => cond.short
  | .cvtWH _ cond => cond.short
  | .fbar _ cond => cond.short
  | .fpiAdd _ _ _ _ => true
  | .fpiSub _ _ _ _ => true
  | .fpiMul _ _ _ _ => true
  | .fpiCmp _ _ _ _ => true
  | .fpiMin _ _ _ _ => true
  | .fpiMax _ _ _ _ => true
  | .ldr _ cond _ => cond.short
  | .str _ cond _ => cond.short
  | .ldrx _ _ _ _ => true
  | .strx _ _ _ _ => true
  | .streamPacketSend _ => true
  | .credit _ _ _ _ => true
  | .eventNak _ _ => true
  | .eventProtocolError _ _ => true
  | .eventOverrun _ _ => true
  | .eventDriverFault _ _ => true
  | .status _ _ _ _ _ _ _ _ => true
  | .readData _ _ _ _ => true
  | .idleSetsReceived _ => true
  | .pong _ _ _ _ _ _ _ _ => true
  | .pingTimer _ => true
  | .configTimeout _ => true
  | .retrainTimeout _ => true
  | .symbolLockLost _ => true
  | .replayTimeout _ => true
  | .creditTimeout _ => true
  | .transactionRetry _ _ => true
  | .transactionBusyRetry _ _ => true
  | .portRetrain _ => true
  | .lifeWriteNow _ => true
  | .lifeWritePeriod => true
  | .lightSecond => true
  | .slateAttach _ d => d.header.length == 256 && d.cert.length == 192
  | .authPoll _ _ _ => true
  | .coursePowerOn _ => true
  | .coursePowerOff _ => true
  | .powerOnStart _ => true
  | .railPowerGood _ _ => true
  | .powerOnStepTimeout _ => true
  | .powerOffStart _ => true
  | .railFault _ _ _ => true
  | .faultRetry _ => true
  | .idleoffTimeout _ => true
  | .loopMeasurement readings => readings.length == 64
  | .loopcrackClear _ => true
  | .loopmaskWrite _ _ => true
  | .frontLightEnable _ => true
  | .frontLightPwmStart _ => true
  | .frontLightDisable _ => true
  | .power _ _ => true
  | .idleEntry => true
  | .dozeAutoTimer => true
  | .dozeEntry => true
  | .dozeExit _ => true
  | .sleepEntry => true
  | .wakeFromSleep _ => true
  | .wakeTimerExpiry _ => true
  | .calendarSecond => true
  | .calendarWrite _ _ _ _ => true
  | .crystalCheck _ => true
  | .keyScan _ => true
  | .keyfifoRead _ => true
  | .analogSample _ _ _ _ => true
  | .vinRestored _ => true
  | .thermalSample temps _ _ _ => temps.length == 24
  | .heatRateUpdate => true
  | .orderlyStopDeadline => true
  | .coolDownExpiry => true
  | .clockIdleStop _ => true
  | .vstbyValid _ => true
  | .vstbyRemoved => true
  | .sqTailDoorbell _ _ => true
  | .cqHeadDoorbell _ _ => true
  | .ringEnable _ => true
  | .ringDisable _ => true
  | .submissionEntryTake _ entry => match entry with | some e => e.length == 64 | none => true
  | .cqCoalesceTimer _ => true
  | .pcieReset _ => true
  | .bar2Write _ _ => true
  | .bar2Read _ _ => true
  | .dmaChunkDone _ _ _ => true
  | .nopCommand _ _ => true
  | .fence _ _ => true
  | .load _ _ => true
  | .store _ _ => true
  | .render _ _ => true
  | .modeLoad _ _ _ _ => true
  | .overlaySet _ _ _ _ => true
  | .vector _ _ => true
  | .vectorPushRetry _ _ => true
  | .query _ _ _ => true
  | .life _ _ _ => true
  | .planStage _ _ _ _ => true
  | .planSwap _ _ => true
  | .swapPoint => true
  | .smbusPacket _ _ _ _ _ _ _ _ _ => true
  | .messageReassemblyTimeout _ _ => true
  | .alertResponseAddressRead _ => true
  | .setEndpointId _ _ _ => true
  | .getEndpointId _ => true
  | .getEndpointUuid _ => true
  | .getMctpVersionSupport _ _ => true
  | .getMessageTypeSupport _ => true
  | .getVendorDefinedMessageSupport _ _ => true
  | .health _ => true
  | .events _ => true
  | .waymarks _ => true
  | .kwavisLife _ => true
  | .powerSet _ => true
  | .blank _ => true
  | .railsOff _ => true
  | .kwavisReset _ => true
  | .fwStage _ => true
  | .fwCommit _ => true
  | .keys _ => true
  | .sensors _ => true
  | .resetNAsserted => true
  | .resetNReleased => true
  | .sysRstWarm _ => true
  | .sysRstCold _ => true
  | .mainDomainStart => true
  | .waymarkEnd _ _ _ => true
  | .waymarkTimeout _ => true
  | .safeRetryTimer => true
  | .mainPgRise => true
  | .mainPgFall => true
  | .waymarkMemoryClear => true
  | .calibrationSave => true
  | .calibrationFactory => true
  | .sha256 => true
  | .sha384 => true
  | .verifyP256 => true
  | .verifyP384 => true
  | .secCommandDone => true
  | .keyRevoke _ => true
  | .rngRead => true
  | .heartbeat _ => true
  | .roleLate _ => true
  | .roleMove _ => true
  | .aocHeartbeatTimeout => true
  | .errorReport _ _ _ _ _ _ _ _ => true
  | .errorQueuePop => true
  | .eventLogged _ _ _ _ _ _ _ _ => true
  | .eventLogWrite => true
  | .eventLogClear => true
  | .requestAudit => true
  | .pcieLinkUp _ _ => true
  | .bar0Read _ _ => true
  | .railDischarged _ => true
  | .corruptedUpstreamPacket _ _ => true
  | .pwmPeriodStart _ => true

end Sys2Proof
end

