-- ==== Sys2Proof/Safety.lean ====
section
/-! DEFINITION. What counts as a safe run, and the terms in which the claims speak: a core that can issue, the entries of its stack, what an instruction leaves behind, and the invariant of the machine. -/
namespace Sys2Proof
open Sys2Proof.Machine

/-- A run of k steps that meets neither a fault nor a refusal. -/
def SafeRun (k : Nat) (s : State) : Prop := ∃ t, Host.Core.run Sys2Proof.core k s = .next t

/-! The invariant -/

/-- Host cells in their one form: byte addresses strictly rising. -/
def hostRising : List Host.Cell → Bool
  | [] => true
  | [_] => true
  | (a, _) :: (b, w) :: r => decide (a < b) && hostRising ((b, w) :: r)

/-- What every step keeps: the memories and the register file in their canonical forms, and as many cores, queues, ports, courses, loops and rings as the device has (Table 1.1). -/
structure Inv (s : State) : Prop where
  mem     : wmapWf (fun _ => 0) s.mem = true
  regs    : wmapWf regReset s.regs.val = true
  inForce : wmapWf regReset s.regs.eff = true
  capture : wmapWf regReset s.regs.cap = true
  hostMem : hostRising s.hostMem = true
  cores   : s.cores.length = 18
  queues  : s.ve.queues.length = 16
  ports   : s.ports.length = 64
  courses : s.courses.length = 8
  loops   : s.loops.length = 64
  rings   : s.hif.rings.length = 16

/-! Control cores -/

/-- A core can issue an instruction of `words` words: it executes (R198, R347), no event comes first (R269), it repeats nothing (R248), no entry of its stack waits for far data (R217), and the words can be fetched (R218, R263, R50). -/
structure CanIssue (s : State) (c : CoreId) (words : Nat) : Prop where
  runs  : coreRuns s c.val = true
  clear : eventDue s c.val = false
  noRep : (s.core c.val).repa = false
  noFar : (s.core c.val).far = []
  fetch : ∀ i < words, fetchFault s c.val (((s.core c.val).pc.toNat + i) % 2 ^ 36) = none

/-- The entries in use of a core's stack, the deepest first, are `l` (R202). -/
structure Holds (k : Core) (l : List Word) : Prop where
  depth : k.depth = l.length
  take  : k.stack.take l.length = l

/-- What every instruction of a core leaves beside its own effect: `k`, what the instruction itself makes of the core, with the PC, the cycle counter and the fetch window gone on; no other core changes; and nothing else of the machine changes but the always-on core's clock, which runs while that core executes (R356). -/
def After (s t : State) (c : CoreId) (pc : Addr) (cycles : Nat) (k : Core) : Prop :=
  (∃ base win page, t.core c.val = { k with pc := pc, cycle := (s.core c.val).cycle + BitVec.ofNat 64 cycles, ahead := (s.core c.val).ahead + cycles, stalled := false, waiting := false, winBase := base, win := win, winDe := page }) ∧
  (∀ d, d ≠ c.val → t.core d = s.core d) ∧
  ∃ b, (c ≠ 17 → b = s.power.clkBurst) ∧ t = { s with cores := t.cores, power := { s.power with clkBurst := b } }

/-- The answer of an instruction that only computes: a next state in which the entries in use are `l`, the flags that `f` names have their new values and every other bit of ST keeps its value, the core's other registers are those of `k`, its PC has gone on by the instruction's words and its cycle counter by the count (R214), and nothing else of the machine changes. -/
def Leaves (s : State) (o : Out) (c : CoreId) (words cycles : Nat) (k : Core) (l : List Word) (f : FlagUpd) : Prop :=
  ∃ t st, st.length = k.stack.length ∧ st.take l.length = l ∧ o = .next t ∧
    After s t c ((s.core c.val).pc + BitVec.ofNat 36 words) cycles { k with stack := st, depth := l.length, st := f.apply k.st }

/-- As Leaves, where every other register of the core keeps its value. -/
abbrev Computes (s : State) (o : Out) (c : CoreId) (words cycles : Nat) (l : List Word) (f : FlagUpd) : Prop :=
  Leaves s o c words cycles (s.core c.val) l f

/-- An instruction of `words` words issues and its condition holds, one that its form can name (R211, R212). -/
structure Fires (s : State) (c : CoreId) (cond : Cond) (words : Nat) : Prop where
  can   : CanIssue s c words
  form  : words = 1 → cond.short = true
  holds : condHolds (s.core c.val) cond = true

/-- The stack of a core has room for `n` entries in use. -/
def Room (k : Core) (n : Nat) : Prop := n ≤ k.stack.length

/-- The core, the condition, the words and the documented count of a control-core instruction (Tables 8.2 to 8.19), where its decode faults depend neither on the words around it nor, but for the number of MTC and MFC, on its operands. -/
def Instr.coreForm : Instr → Option (CoreId × Cond × Nat × Nat)
  | .nop c cond => some (c, cond, 1, 1)
  | .dup c cond => some (c, cond, 1, 1)
  | .drop c cond => some (c, cond, 1, 1)
  | .swap c cond => some (c, cond, 1, 1)
  | .over c cond => some (c, cond, 1, 1)
  | .rot c cond => some (c, cond, 1, 1)
  | .nip c cond => some (c, cond, 1, 1)
  | .tuck c cond => some (c, cond, 1, 1)
  | .dup2 c cond => some (c, cond, 1, 1)
  | .drop2 c cond => some (c, cond, 1, 1)
  | .swap2 c cond => some (c, cond, 1, 1)
  | .over2 c cond => some (c, cond, 1, 1)
  | .pick c cond _ => some (c, cond, 1, 1)
  | .toa c cond _ => some (c, cond, 1, 1)
  | .froma c cond _ => some (c, cond, 1, 1)
  | .psh c cond _ => some (c, cond, 1, 1)
  | .ldh c cond _ => some (c, cond, 1, 1)
  | .pshw c cond _ => some (c, cond, 2, 2)
  | .add c cond _ => some (c, cond, 1, 1)
  | .adc c cond _ => some (c, cond, 1, 1)
  | .sub c cond _ => some (c, cond, 1, 1)
  | .sbc c cond _ => some (c, cond, 1, 1)
  | .cmp c cond _ => some (c, cond, 1, 1)
  | .neg c cond _ => some (c, cond, 1, 1)
  | .inc c cond _ => some (c, cond, 1, 1)
  | .dcr c cond _ => some (c, cond, 1, 1)
  | .and c cond _ => some (c, cond, 1, 1)
  | .or c cond _ => some (c, cond, 1, 1)
  | .xor c cond _ => some (c, cond, 1, 1)
  | .andn c cond _ => some (c, cond, 1, 1)
  | .not c cond _ => some (c, cond, 1, 1)
  | .tst c cond _ => some (c, cond, 1, 1)
  | .mins c cond _ => some (c, cond, 1, 1)
  | .maxs c cond _ => some (c, cond, 1, 1)
  | .minu c cond _ => some (c, cond, 1, 1)
  | .maxu c cond _ => some (c, cond, 1, 1)
  | .abs c cond _ => some (c, cond, 1, 1)
  | .exts c cond => some (c, cond, 1, 1)
  | .extz c cond => some (c, cond, 1, 1)
  | .aluiAdd c cond _ _ => some (c, cond, 2, 2)
  | .aluiAdc c cond _ _ => some (c, cond, 2, 2)
  | .aluiSub c cond _ _ => some (c, cond, 2, 2)
  | .aluiSbc c cond _ _ => some (c, cond, 2, 2)
  | .aluiCmp c cond _ _ => some (c, cond, 2, 2)
  | .aluiAnd c cond _ _ => some (c, cond, 2, 2)
  | .aluiOr c cond _ _ => some (c, cond, 2, 2)
  | .aluiXor c cond _ _ => some (c, cond, 2, 2)
  | .shl c cond _ => some (c, cond, 1, 1)
  | .shr c cond _ => some (c, cond, 1, 1)
  | .sar c cond _ => some (c, cond, 1, 1)
  | .rol c cond _ => some (c, cond, 1, 1)
  | .shlD c cond _ => some (c, cond, 1, 1)
  | .shrD c cond _ => some (c, cond, 1, 1)
  | .sarD c cond _ => some (c, cond, 1, 1)
  | .rolD c cond _ => some (c, cond, 1, 1)
  | .mul c cond => some (c, cond, 1, 5)
  | .muls c cond => some (c, cond, 1, 5)
  | .mul32 c cond => some (c, cond, 1, 9)
  | .div c cond => some (c, cond, 1, 18)
  | .divs c cond => some (c, cond, 1, 19)
  | .rem c cond => some (c, cond, 1, 18)
  | .dadd c cond _ => some (c, cond, 1, 1)
  | .dadc c cond _ => some (c, cond, 1, 1)
  | .dsub c cond _ => some (c, cond, 1, 1)
  | .dsbc c cond _ => some (c, cond, 1, 1)
  | .dneg c cond _ => some (c, cond, 1, 1)
  | .dcmp c cond _ => some (c, cond, 1, 1)
  | .cvtbd c cond _ => some (c, cond, 1, 1)
  | .cvtdb c cond _ => some (c, cond, 1, 1)
  | .btst c cond _ => some (c, cond, 1, 1)
  | .bset c cond _ => some (c, cond, 1, 1)
  | .bclr c cond _ => some (c, cond, 1, 1)
  | .binv c cond _ => some (c, cond, 1, 1)
  | .brev c cond _ => some (c, cond, 1, 1)
  | .popc c cond => some (c, cond, 1, 1)
  | .clz c cond => some (c, cond, 1, 1)
  | .par c cond => some (c, cond, 1, 1)
  | .pard c cond => some (c, cond, 1, 1)
  | .crc8 c cond => some (c, cond, 1, 1)
  | .crc16 c cond => some (c, cond, 1, 1)
  | .crc32 c cond => some (c, cond, 1, 1)
  | .crci c cond _ _ => some (c, cond, 2, 2)
  | .ld c cond _ _ _ => some (c, cond, 1, 2)
  | .st c cond _ _ _ => some (c, cond, 1, 2)
  | .ldd c cond _ _ _ => some (c, cond, 1, 3)
  | .std c cond _ _ _ => some (c, cond, 1, 3)
  | .argLoad c cond _ => some (c, cond, 1, 2)
  | .argStore c cond _ => some (c, cond, 1, 2)
  | .ldx c cond _ _ _ => some (c, cond, 2, 3)
  | .stx c cond _ _ _ => some (c, cond, 2, 3)
  | .lddx c cond _ _ _ => some (c, cond, 2, 4)
  | .stdx c cond _ _ _ => some (c, cond, 2, 4)
  | .adda c cond _ _ => some (c, cond, 2, 2)
  | .br c cond _ => some (c, cond, 1, 2)
  | .dbnz c cond _ => some (c, cond, 1, 2)
  | .brl c cond _ => some (c, cond, 2, 2)
  | .dbnzl c cond _ => some (c, cond, 2, 2)
  | .jmpa c cond _ => some (c, cond, 2, 2)
  | .call c cond m _ => some (c, cond, 2, 4 + 2 * maskCount m.toNat)
  | .calla c cond m _ => some (c, cond, 2, 4 + 2 * maskCount m.toNat)
  | .ret c cond m => some (c, cond, 1, 4 + 2 * maskCount m.toNat)
  | .callg c cond _ => some (c, cond, 2, 12)
  | .retx c cond => some (c, cond, 1, 10)
  | .trap c cond _ => some (c, cond, 1, 10)
  | .trapl c cond _ => some (c, cond, 2, 10)
  | .synci c cond => some (c, cond, 1, 9)
  | .wait c cond => some (c, cond, 1, 2)
  | .cli c cond => some (c, cond, 1, 1)
  | .sti c cond => some (c, cond, 1, 1)
  | .halt c cond => some (c, cond, 1, 1)
  | .fadd c cond f => some (c, cond, 1, if f then 4 else 3)
  | .fsub c cond f => some (c, cond, 1, if f then 4 else 3)
  | .fmul c cond f => some (c, cond, 1, if f then 7 else 4)
  | .fdiv c cond f => some (c, cond, 1, if f then 27 else 14)
  | .fmin c cond f => some (c, cond, 1, if f then 4 else 3)
  | .fmax c cond f => some (c, cond, 1, if f then 4 else 3)
  | .fcmp c cond f => some (c, cond, 1, if f then 4 else 3)
  | .fabs c cond _ => some (c, cond, 1, 1)
  | .fneg c cond _ => some (c, cond, 1, 1)
  | .fsqrt c cond => some (c, cond, 1, 27)
  | .fma c cond => some (c, cond, 1, 9)
  | .cvtSH c cond => some (c, cond, 1, 3)
  | .cvtHS c cond => some (c, cond, 1, 3)
  | .cvtSW c cond => some (c, cond, 1, 3)
  | .cvtWS c cond => some (c, cond, 1, 3)
  | .cvtSI c cond => some (c, cond, 1, 3)
  | .cvtIS c cond => some (c, cond, 1, 3)
  | .cvtHW c cond => some (c, cond, 1, 3)
  | .cvtWH c cond => some (c, cond, 1, 3)
  | .fbar c cond => some (c, cond, 1, 4)
  | .fpiAdd c cond f _ => some (c, cond, 2, if f then 5 else 4)
  | .fpiSub c cond f _ => some (c, cond, 2, if f then 5 else 4)
  | .fpiMul c cond f _ => some (c, cond, 2, if f then 8 else 5)
  | .fpiCmp c cond f _ => some (c, cond, 2, if f then 5 else 4)
  | .fpiMin c cond f _ => some (c, cond, 2, if f then 5 else 4)
  | .fpiMax c cond f _ => some (c, cond, 2, if f then 5 else 4)
  | .ldr c cond _ => some (c, cond, 1, 24)
  | .str c cond _ => some (c, cond, 1, 2)
  | .ldrx c cond _ _ => some (c, cond, 2, 24)
  | .strx c cond _ _ => some (c, cond, 2, 2)
  | .vissue c cond _ => some (c, cond, 1, 4)
  | .vissuex c cond _ _ _ => some (c, cond, 2, 5)
  | .vpoll c cond _ => some (c, cond, 1, 3)
  | .vfence c cond _ => some (c, cond, 1, 2)
  | .mtc c cond _ => some (c, cond, 2, 2)
  | .mfc c cond _ => some (c, cond, 2, 2)
  | _ => none

/-- Whether core `c`, in a ring, has the instruction (Tables 7.13, 9.1): the always-on core lacks gates, floating point, the vector queues and the control registers 0x80 to 0xFF; CLI and STI belong to rings 0 and 1, HALT to ring 0, the control registers 0x40 to 0xFF to ring 0, and a write of 0x100 to 0x13F to rings 0 and 1. -/
def Instr.present (c : CoreId) (ring : Nat) : Instr → Prop
  | .callg .. | .fadd .. | .fsub .. | .fmul .. | .fdiv .. | .fmin .. | .fmax .. | .fcmp .. | .fabs .. | .fneg .. | .fsqrt .. | .fma ..
  | .cvtSH .. | .cvtHS .. | .cvtSW .. | .cvtWS .. | .cvtSI .. | .cvtIS .. | .cvtHW .. | .cvtWH .. | .fbar ..
  | .fpiAdd .. | .fpiSub .. | .fpiMul .. | .fpiCmp .. | .fpiMin .. | .fpiMax .. | .vissue .. | .vissuex .. | .vpoll .. | .vfence .. => c ≠ 17
  | .cli .. | .sti .. => ring ≤ 1
  | .halt .. => ring = 0
  | .mtc _ _ n => n.toNat ≤ 0x13F ∧ (0x40 ≤ n.toNat ∧ n.toNat < 0x100 → ring = 0) ∧ (0x80 ≤ n.toNat ∧ n.toNat < 0x100 → c ≠ 17) ∧ (0x100 ≤ n.toNat → ring ≤ 1)
  | .mfc _ _ n => n.toNat ≤ 0x13F ∧ (0x40 ≤ n.toNat ∧ n.toNat < 0x100 → ring = 0) ∧ (0x80 ≤ n.toNat ∧ n.toNat < 0x100 → c ≠ 17)
  | _ => True

/-- Whether an instruction is one of those of one word that a REP may repeat (R249), customer instructions apart. -/
def Instr.repeats : Instr → Bool
  | .nop .. | .dup .. | .drop .. | .swap .. | .over .. | .rot .. | .nip .. | .tuck .. | .dup2 .. | .drop2 .. | .swap2 .. | .over2 .. | .pick .. | .toa .. | .froma ..
  | .psh .. | .ldh .. | .add .. | .adc .. | .sub .. | .sbc .. | .cmp .. | .neg .. | .inc .. | .dcr .. | .and .. | .or .. | .xor .. | .andn .. | .not .. | .tst ..
  | .mins .. | .maxs .. | .minu .. | .maxu .. | .abs .. | .exts .. | .extz .. | .shl .. | .shr .. | .sar .. | .rol .. | .shlD .. | .shrD .. | .sarD .. | .rolD ..
  | .mul .. | .muls .. | .mul32 .. | .div .. | .divs .. | .rem .. | .dadd .. | .dadc .. | .dsub .. | .dsbc .. | .dneg .. | .dcmp .. | .cvtbd .. | .cvtdb ..
  | .btst .. | .bset .. | .bclr .. | .binv .. | .brev .. | .popc .. | .clz .. | .par .. | .pard .. | .crc8 .. | .crc16 .. | .crc32 ..
  | .ld .. | .st .. | .ldd .. | .std .. | .argLoad .. | .argStore ..
  | .fadd .. | .fsub .. | .fmul .. | .fdiv .. | .fmin .. | .fmax .. | .fcmp .. | .fabs .. | .fneg .. | .fsqrt .. | .fma ..
  | .cvtSH .. | .cvtHS .. | .cvtSW .. | .cvtWS .. | .cvtSI .. | .cvtIS .. | .cvtHW .. | .cvtWH .. => true
  | _ => false

/-- A core repeats an instruction (REPA = 1, R248) and can issue it: it executes, no event comes first, no entry of its stack waits for far data, and the word can be fetched. -/
structure Repeating (s : State) (c : CoreId) : Prop where
  runs  : coreRuns s c.val = true
  clear : eventDue s c.val = false
  rep   : (s.core c.val).repa = true
  noFar : (s.core c.val).far = []
  fetch : fetchFault s c.val (s.core c.val).pc.toNat = none

/-- The words of a value of 16 bits, or of 32 bits where `w` holds, less significant first (R6). -/
def valueWords (w : Bool) (v : BitVec (wWidth w)) : List Word := wordsOfNat (wWords w) v.toNat

/-- Z and N of a result (R233). -/
def resultFlags {n : Nat} (v : BitVec n) : FlagUpd := { z := some (v == 0), n := some v.msb }

/-- CRCS after steps over data bits, first bit first (R210). -/
def crcOver (p s : BitVec 32) (bits : List Bool) : BitVec 32 :=
  bits.foldl (fun x b => if x.msb != b then (x <<< 1) ^^^ p else x <<< 1) s

/-- The bits n−1 down to 0 of a value, in that order. -/
def bitsDown {w : Nat} (n : Nat) (v : BitVec w) : List Bool := (List.range n).map fun i => v.getLsbD (n - 1 - i)

/-- The words of an access lie in the core's own local memory (R200), a window grants the right on them (R263), and the address register steps to `step` (R207). -/
structure OwnAccess (s : State) (c : CoreId) (right words : Nat) (m : Nat × Option Nat) (step : Nat) : Prop where
  own   : ∀ a ∈ addrsFrom m.1 words, isLocal s c.val a = true
  grant : winGrants (s.core c.val) right (addrsFrom m.1 words) = true
  steps : m.2 = some step

/-- None of some words of a core's own local memory has a double-bit error (R50). -/
def Clean (s : State) (c : CoreId) (as : List Nat) : Prop := ∀ a ∈ as, poisoned s (ownKey c.val a) = false

/-- What storage holds at an address once words have been stored in turn. -/
def storedAt (s : State) (cells : List (Nat × Word)) (key : Nat) : Word := cells.foldl (fun v e => if e.1 = key then e.2 else v) (memGet s key)

/-- As After, where the instruction also stores `cells`, pairs of a storage address of the core's own local memory and a word: every other word of memory reads as before, and a stored word is no longer bad (R50). -/
def AfterStores (s t : State) (c : CoreId) (pc : Addr) (cycles : Nat) (k : Core) (cells : List (Nat × Word)) : Prop :=
  ∃ m p, (∀ key, wmapGet m key 0 = storedAt s cells key) ∧ (∀ u, u ∈ p ↔ u ∈ s.poison ∧ u ∉ cells.map Prod.fst) ∧
    After { s with mem := m, poison := p } t c pc cycles k

/-- As Leaves, where the instruction also stores `cells`. -/
def LeavesStored (s : State) (o : Out) (c : CoreId) (words cycles : Nat) (k : Core) (l : List Word) (cells : List (Nat × Word)) : Prop :=
  ∃ t st, st.length = k.stack.length ∧ st.take l.length = l ∧ o = .next t ∧
    AfterStores s t c ((s.core c.val).pc + BitVec.ofNat 36 words) cycles { k with stack := st, depth := l.length } cells

/-- One repetition has run (R248): the entries in use are `l`, the flags that `f` names are new, `cells` are stored, the core's other registers are those of `k`, RC has gone down by 1, and the PC stays, until RC is 0: then REPA clears and the PC goes on. Nothing else changes. -/
def Repeated (s : State) (o : Out) (c : CoreId) (cycles : Nat) (k : Core) (l : List Word) (f : FlagUpd) (cells : List (Nat × Word)) : Prop :=
  let last := (s.core c.val).rc = 1
  ∃ t st, st.length = k.stack.length ∧ st.take l.length = l ∧ o = .next t ∧
    AfterStores s t c (if last then (s.core c.val).pc + 1 else (s.core c.val).pc) cycles
      { k with stack := st, depth := l.length, rc := (s.core c.val).rc - 1, st := if last then f.apply k.st &&& 0xFDFF else f.apply k.st } cells

/-- The three words of an address: bits [15:0], [31:16] and [35:32] (R232). -/
def addrWords (a : Addr) : List Word := [a.setWidth 16, (a >>> 16).setWidth 16, (a >>> 32).setWidth 16]

/-- The offset of an address from a core's local base, as a frame holds it (Table 9.9). -/
def offsetWord (s : State) (c : CoreId) (a : Nat) : Word := wd (a + 2 ^ 36 - localBase s c.val)

/-- The words of a core's own local memory from an address on, each with the word it is to hold. -/
def ownCells (c : CoreId) (a : Nat) (ws : List Word) : List (Nat × Word) := ((addrsFrom a ws.length).map (ownKey c.val)).zip ws

/-- The first word of the frame of an exception (R268 steps 1 and 2). -/
def frameBase (k : Core) : Nat := ((if k.ring ≠ 0 then (k.ssp.getD 0 0).toNat else k.addr 7) + 2 ^ 36 - 10) % 2 ^ 36

/-- An exception entry that meets no double fault: the frame and the vector word lie in local memory, apart from each other, the vector word is sound, and the handler at `h` can be fetched (R268, R274). -/
structure EntryOpen (s : State) (c : CoreId) (cause h : Nat) : Prop where
  frame  : ∀ a ∈ addrsFrom (frameBase (s.core c.val)) 10, isLocal s c.val a = true
  vector : isLocal s c.val ((localBase s c.val + (s.core c.val).evbase.toNat + cause) % 2 ^ 36) = true
  apart  : (localBase s c.val + (s.core c.val).evbase.toNat + cause) % 2 ^ 36 ∉ addrsFrom (frameBase (s.core c.val)) 10
  sound  : poisoned s (ownKey c.val ((localBase s c.val + (s.core c.val).evbase.toNat + cause) % 2 ^ 36)) = false
  target : h = (localBase s c.val + (ownRead s c.val ((localBase s c.val + (s.core c.val).evbase.toNat + cause) % 2 ^ 36)).toNat) % 2 ^ 36
  fetch  : fetchable s c.val h = true

/-- The entry of an exception (R268): the 10-word frame is written below the stack top, A7 points at it, RING, IE and REPA are 0, EDEPTH is DEPTH, and the PC is at the handler. Nothing else changes. -/
def Enters (s t : State) (c : CoreId) (cause cycles h : Nat) (info : Word) (addr : Addr) (ret : Nat) : Prop :=
  let k := s.core c.val
  AfterStores s t c (BitVec.ofNat 36 h) cycles
    { k with a := k.a.set 7 (BitVec.ofNat 36 (frameBase k)), st := k.st &&& 0xFC3F, edepth := BitVec.ofNat 6 k.depth }
    (ownCells c (frameBase k) ([offsetWord s c ret, k.st] ++ addrWords (BitVec.ofNat 36 (k.addr 7)) ++ [BitVec.ofNat 16 (0x2000 + cause), info] ++ addrWords addr))

/-! Floating point: what a rounding is (R110, R209) -/

/-- The number that the bits of a finite value encode. -/
def fpRat (f : Fmt) (x : Nat) : ℚ := match f.val x with
  | .fin neg m e => (if neg then -1 else 1) * (m : ℚ) * (2 : ℚ) ^ e
  | _ => 0

/-- The bits of a zero or of a normal number. -/
structure FpNormal (f : Fmt) (x : Nat) : Prop where
  width  : x < 2 * f.signBit
  finite : f.expOf x ≠ f.expMax
  normal : f.isSub x = false

/-- The numbers that a format holds, subnormals apart. -/
def fpGrid (f : Fmt) (v : ℚ) : Prop := ∃ x, FpNormal f x ∧ v = fpRat f x

/-- `v` is the exact value `q` rounded once, by a rounding mode, to a number of `grid`; `even` says that the result's last place is even, which settles a tie. -/
def RoundedOnce (rnd : Rnd) (grid : ℚ → Prop) (even : Prop) (q : ℝ) (v : ℚ) : Prop :=
  grid v ∧ match rnd with
  | .rup => q ≤ v ∧ ∀ y, grid y → q ≤ y → v ≤ y
  | .rdn => v ≤ q ∧ ∀ y, grid y → y ≤ q → y ≤ v
  | .rtz => |(v : ℝ)| ≤ |q| ∧ 0 ≤ v * q ∧ ∀ y, grid y → 0 ≤ y * q → |(y : ℝ)| ≤ |q| → |y| ≤ |v|
  | .rne => ∀ y, grid y → |v - q| ≤ |y - q| ∧ (|v - q| = |y - q| → y ≠ v → even)

/-- A result of a format is the exact value rounded once, with IX as its one flag where it is not exact (R110, R209): unless the value would be subnormal, which traps (`tiny`), or the result overflows (R112). -/
def RoundsOnce (f : Fmt) (rnd : Rnd) (q : ℝ) (o : FOut) : Prop :=
  o.tiny = false → o.flags % 8 < 4 →
    FpNormal f o.bits ∧ RoundedOnce rnd (fpGrid f) (o.bits % 2 = 0) q (fpRat f o.bits) ∧ (o.flags = 0 ∨ o.flags = flIX) ∧ (o.flags = 0 ↔ (fpRat f o.bits : ℝ) = q)

end Sys2Proof
end

