-- ==== Sys2Proof/Certificates/Slice0/Obligations.lean ====
section
/-! DEFINITION. The statements about the model, for the provers: one definition for each. -/
open Sys2Proof Sys2Proof.Machine

/-! The block as a whole: its queue, its clocks, its invariant -/

/-- A step with a command at the front of the queue is that command's meaning on the machine with the queue's rest. -/
def Obligations.StepRunsTheFrontCommand : Prop :=
  ∀ (s : State) (c : Instr) (rest : List Instr), step { s with pending := c :: rest } = exec c { s with pending := rest }

/-- R228, R352, R356: with no command waiting, a step is one count of 10 ns: the time base counts while the main domain's clocks run, a core that executes counts 10 cycles of 1 GHz, and the fraction of an AON tick grows by 32,768 parts of 100,000,000. Without VSTBY nothing counts. While no fault path waits for credits, nothing else of the main domain moves with it. The step of 10 ns is the model's choice (log entry 3). -/
def Obligations.IdleStepsCountTheClocks : Prop :=
  ∀ (s : State) (c : CoreId), s.pending = [] → (∀ co : CourseId, (s.course co.val).waitAt = none) →
    (s.boot.vstby = false → step s = .next s) ∧
    (s.boot.vstby = true → s.timeFrac + 32768 < 100000000 →
      ∃ t, step s = .next t ∧ t.time = (if s.boot.mainOn ∧ s.power.st ≠ .doze then s.time + 1 else s.time) ∧ t.timeFrac = s.timeFrac + 32768 ∧ t.aon = s.aon ∧
        t.core c.val = (if s.boot.mainOn ∧ s.power.st ≠ .doze ∧ c.val < 17 ∧ c.val < s.cores.length ∧ (s.core c.val).running ∧ !(s.core c.val).halted
          then { s.core c.val with cycle := (s.core c.val).cycle + BitVec.ofNat 64 (10 - (s.core c.val).ahead), ahead := (s.core c.val).ahead - 10 } else s.core c.val) ∧
        t.mem = s.mem ∧ t.regs = s.regs ∧ t.disp = s.disp ∧ t.ports = s.ports ∧ t.hif = s.hif) ∧
    (s.boot.vstby = true → 100000000 ≤ s.timeFrac + 32768 → s.timeFrac < 100000000 →
      ∃ t, step s = .next t ∧ t.aon.tick = s.aon.tick + 1 ∧ t.mem = s.mem ∧ t.disp = s.disp)

/-- Every command that a sender can spell answers a next state: no well-formed command ends in a fault or a refusal, in any state. That an event whose preconditions the state does not meet changes nothing, and so answers a next state too, and that ill-formed operands alone stop, are the model's choices (log entries 2 and 11). -/
def Obligations.WellFormedCommandsComplete : Prop :=
  ∀ (i : Instr) (s : State), i.wellFormed = true → ∃ t, exec i s = .next t

/-- The state after reset meets the invariant. -/
def Obligations.ResetMeetsTheInvariant : Prop := Inv State.reset

/-- Every step keeps the invariant: the memories and the register file stay in their canonical forms, and the device keeps its 18 cores, 16 issue queues, 64 ports, 8 courses, 64 loops and 16 rings. -/
def Obligations.StepsKeepTheInvariant : Prop := ∀ (s t : State), Inv s → step s = .next t → Inv t

/-! Registers (R7 to R13, R98, R223, R265) -/

/-- R8 to R10, R13, R223: a core's register write. Where its ring may not write the word, the write is discarded with a late bus error. A register of read-only fields ignores it; a Plan field rejects it. Else, in a register of one word without an action of its own, an RW field takes the bits written, a W1C field clears where they are 1, and every other bit keeps its value; a lower word of a register of several words is held, and has no effect; its highest word makes the whole value change at once, the lower words as held, or, where none is held, as they are. The bits are those that the register holds; bits 0 and 1 of AON_WAKEEN read 1 whatever is written (R351). R78, R98, R265: a descriptor word is written by a core of the ring that owns the descriptor, or one more privileged; words 0 to 6 are held, and word 7 makes the whole descriptor change at once. Another ring's write is discarded with a late bus error. -/
def Obligations.RegisterAndDescriptorWritesFollowTheirFields : Prop :=
  (∀ (s : State) (c : CoreId) (blk : Fin 13) (off v : Word) (f : RegFam) (i w : Nat),
    let key := blk.val * 65536 + off.toNat
    let cmd : Instr := .registerWrite (.core c blk off v)
    coreRuns s c.val = true → blockPowered s blk.val = true →
    (ringWrites s (s.core c.val).ring key = false → exec cmd s = .next (queueLate s c.val 0xD (regAddr key))) ∧
    (ringWrites s (s.core c.val).ring key = true → isFixedPattern key = false →
      (findReg key = none → exec cmd s = .next s) ∧
      (findReg key = some (f, i, w) → ¬ (f.blk = 11 ∧ f.off = 0x40) →
        ((∀ x ∈ f.fields, x.acc = .ro) → exec cmd s = .next s) ∧
        ((∃ x ∈ f.fields, x.acc ≠ .ro) → (∃ x ∈ f.fields, x.chg = .plan ∧ 16 * w ≤ x.hi ∧ x.lo < 16 * w + 16) → exec cmd s = .next (rejectChange s blk.val)) ∧
        ((∃ x ∈ f.fields, x.acc ≠ .ro) → (∀ x ∈ f.fields, x.chg ≠ .plan) → w + 1 < f.words →
          ∃ t, exec cmd s = .next t ∧ t = { s with regs := t.regs } ∧ t.regs.val = s.regs.val ∧ t.regs.eff = s.regs.eff ∧ assocGet t.regs.held key = some v) ∧
        ((∃ x ∈ f.fields, x.acc ≠ .ro) → (∀ x ∈ f.fields, x.chg ≠ .plan) → f.words = 1 → (∀ u, writeAction u f.blk f.off i v.toNat = none) →
          wmapWf regReset s.regs.val = true →
          ∃ t, exec cmd s = .next t ∧ ∀ b < 16, (t.regW key).getLsbD b =
            (if ∃ x ∈ f.fields, x.acc = .rw ∧ x.lo ≤ b ∧ b ≤ x.hi then v.getLsbD b
             else if ∃ x ∈ f.fields, x.acc = .w1c ∧ x.lo ≤ b ∧ b ≤ x.hi then (s.regW key).getLsbD b && !v.getLsbD b else (s.regW key).getLsbD b)) ∧
        ((∃ x ∈ f.fields, x.acc ≠ .ro) → (∀ x ∈ f.fields, x.chg ≠ .plan) → 1 < f.words → w + 1 = f.words → (∀ u x, writeAction u f.blk f.off i x = none) →
          wmapWf regReset s.regs.val = true →
          let k := key - w
          let lower (j : Nat) : Option Word := if j = w then some v else assocGet s.regs.held (k + j)
          ∃ t, exec cmd s = .next t ∧ (∀ j ≤ w, assocGet t.regs.held (k + j) = none) ∧ ∀ j ≤ w, ∀ b < 16, (t.regW (k + j)).getLsbD b =
            (if ∃ x ∈ f.fields, x.acc = .rw ∧ x.lo ≤ 16 * j + b ∧ 16 * j + b ≤ x.hi then ((lower j).getD (s.regW (k + j))).getLsbD b
             else if ∃ x ∈ f.fields, x.acc = .w1c ∧ x.lo ≤ 16 * j + b ∧ 16 * j + b ≤ x.hi then (s.regW (k + j)).getLsbD b && !((lower j).getD 0).getLsbD b
             else (s.regW (k + j)).getLsbD b)))) ∧
    ((readKey s Reg.AON_WAKEEN).1.getLsbD 0 = true ∧ (readKey s Reg.AON_WAKEEN).1.getLsbD 1 = true)) ∧
  (∀ (s : State) (c : CoreId) (d : Fin 4096) (w : Fin 8) (v : Word) (ws : List Word),
    let key := Reg.VE_DESC + 8 * d.val
    coreRuns s c.val = true → s.boot.mainOn = true →
    (descOwner s d.val < (s.core c.val).ring → exec (.descriptorWrite c d w v) s = .next (queueLate s c.val 0xD (regAddr (key + w.val)))) ∧
    ((s.core c.val).ring ≤ descOwner s d.val →
      (w.val < 7 → ∃ t, exec (.descriptorWrite c d w v) s = .next t ∧ t = { s with regs := t.regs } ∧ t.regs.val = s.regs.val ∧ assocGet t.regs.held (key + w.val) = some v) ∧
      (w.val = 7 → ws.length = 7 → (∀ j < 7, assocGet s.regs.held (key + j) = ws[j]?) → wmapWf regReset s.regs.val = true →
        ∃ t, exec (.descriptorWrite c d w v) s = .next t ∧ t = { s with regs := t.regs } ∧ (∀ j < 8, some (t.regW (key + j)) = (ws ++ [v])[j]?) ∧
          ∀ k, (k < key ∨ key + 8 ≤ k) → t.regW k = s.regW k)))

/-! Host accesses to BAR0 and BAR2 (R365 to R369, R100, R440) -/

/-- R365 to R367, R100: host accesses to BAR0. A write of other than one DW, with a byte enable of its low bytes clear, or to a register that the host may not write is discarded, counted and logged; descriptors, patterns and windows are refused with EV-0x7020. A read of one DW returns the register word with 0 above it, and any other ends in a completer abort. R368, R369, R440, R27: host accesses to BAR2. A write of enabled bytes, all of them to memory that the host may write, changes those bytes and no other; one that reaches the state store window, a state plane or an unmapped address is discarded, counted and logged. A read returns the bytes, none where their word is poisoned, which is then reported through AER, and one that reaches an unmapped address ends in a completer abort. That a poisoned word sets bit 12 of the uncorrectable AER status, and a completer abort, here and at BAR0, bit 15, is the model's layout (log entry 51). -/
def Obligations.HostAccessesFollowR366AndR369 : Prop :=
  (∀ (s : State) (off : BitVec 22) (ndw : Nat) (be : BitVec 4) (v : BitVec 32) (f : RegFam) (i w : Nat),
    let h := hostAccess s
    let o := off.toNat
    let key := o / 0x40000 * 65536 + o % 0x40000 / 4
    let put : Instr := .registerWrite (.host off ndw be v)
    s.boot.mainOn = true →
    (ndw ≠ 1 → exec put s = .next (hostBad h 0x7001 o)) ∧
    (ndw = 1 → o < 0x340000 → (be.getLsbD 0 && be.getLsbD 1) = false → exec put s = .next (hostBad h 0x7001 o)) ∧
    (ndw = 1 → o < 0x340000 → be.getLsbD 0 = true → be.getLsbD 1 = true →
      (0x24000 ≤ key ∧ key < 0x24400 ∨ 0x28000 ≤ key ∧ key < 0x30000 → exec put s = .next (hostBadVe h)) ∧
      (¬ (0x24000 ≤ key ∧ key < 0x24400 ∨ 0x28000 ≤ key ∧ key < 0x30000) →
        (findReg key = none → exec put s = .next (hostBad h 0x7001 o)) ∧
        (findReg key = some (f, i, w) → exec put s = .next (if hostReaches f then writeWord h f i w (v.setWidth 16) else hostBad h 0x7001 o)))) ∧
    (ndw = 1 → 0x340000 ≤ o → ¬ (0x3F0000 ≤ o ∧ o < 0x3F0400) → exec put s = .next (hostBad h 0x7001 o)) ∧
    (ndw ≠ 1 → exec (.bar0Read off ndw) s = .next { h with hif := { h.hif with lastRead := [], aborted := true, cfg := h.hif.cfg.abort } }) ∧
    (o < 0x300000 → key ≠ Reg.PM_PIN → isFixedPattern key = false → findReg key = some (f, i, 0) → f.words = 1 →
      exec (.bar0Read off 1) s = .next { h with hif := { h.hif with
        lastRead := (bytesOfNat 4 (regLive h f i % 65536)).map some, aborted := false } })) ∧
  (∀ (s : State) (off : BitVec 36) (b : Byte) (data : List (Option Byte)) (len a key half : Nat),
    let h := hostAccess s
    let o := off.toNat
    s.boot.mainOn = true →
    (bar2At o = some (a, half, true) → storeKey h a = some key → inStatePlane h a = false → wmapWf (fun _ => 0) h.mem = true →
      ∃ t, exec (.bar2Write off [some b]) s = .next t ∧
        memGet t key = (if half = 0 then (memGet h key).extractLsb' 8 8 ++ b else b ++ (memGet h key).setWidth 8) ∧
        ∀ k, k ≠ key → memGet t k = memGet h k) ∧
    ((∃ j, j < data.length ∧ (data.getD j none).isSome = true ∧ bar2Writable h (o + j) = false) →
      exec (.bar2Write off data) s = .next (hostBad h 0x7010 o)) ∧
    ((∀ j < len, bar2Mapped h (o + j) = true) → (∀ j < len, (bar2Byte h (o + j)).isSome = true) →
      exec (.bar2Read off len) s = .next { h with hif := { h.hif with lastRead := (List.range len).map fun j => bar2Byte h (o + j), aborted := false } }) ∧
    ((∀ j < len, bar2Mapped h (o + j) = true) → (∃ j, j < len ∧ bar2Byte h (o + j) = none) →
      ∃ t, exec (.bar2Read off len) s = .next t ∧ t.hif.lastRead = ((List.range len).map fun j => bar2Byte h (o + j)) ∧ t.hif.aborted = false ∧
        t.hif.cfg = { h.hif.cfg with aerUncorr := h.hif.cfg.aerUncorr ||| 0x1000 } ∧ t.mem = h.mem) ∧
    ((∃ j, j < len ∧ bar2Mapped h (o + j) = false) → exec (.bar2Read off len) s = .next { h with hif := { h.hif with lastRead := [], aborted := true, cfg := h.hif.cfg.abort } }))

/-! The places of addresses (R37, R38, R43, R46, R54) -/

/-- R37, R38, R43, R46, R54: under every hash, with or without a retired pseudo-channel, two HBM words of different addresses lie in different places, and so do two words of the vector store and two of the fitted state store. -/
def Obligations.PlacesOfAddressesAreDistinct : Prop :=
  ∀ (s : State) (a b : Nat),
    (spaceOf s a = .hbm → spaceOf s b = .hbm → hbmPlace s a = hbmPlace s b → a = b) ∧
    (spaceOf s a = .vs → spaceOf s b = .vs → vsPlace a = vsPlace b → a = b) ∧
    (a < s.ssWords → b < s.ssWords → ssPlace s a = ssPlace s b → a = b)

/-! The memories' errors (R41 to R49, R432), the state store's writes and the stops (R57 to R59, R193, R338 to R341, R401, R441) -/

/-- R41 to R44, R48, R49, R432: a corrected error is counted; an uncorrectable one poisons its unit and is counted; a pseudo-channel over its limit of corrected errors, or with a second uncorrectable error in 24 h, is retired and migrates; a bank with an uncorrectable error is copied into a spare. A scrubber whose interval is 0 does nothing. The end of a migration and of a bank's copy. -/
def Obligations.MemoryErrorsAreCountedAndRetired : Prop :=
  ∀ (s : State) (e : MemError) (l : List MemError) (b i : Nat) (rest : List Nat),
    let a := e.addr.toNat
    let pc := pcOf s a
    let n := recent s s.memc.cePc pc + 1
    let limit := 16 * s.regF Reg.MEM_CE_LIMIT 15 8
    let hours := s.regF Reg.MEM_SCRUB 15 8
    let secs := s.regF Reg.MEM_SCRUB 7 0
    let counts (t : State) (key : Nat) : Prop := t.reg key 2 = min 4294967295 (s.reg key 2 + 1) ∧ t.mem = s.mem ∧ t.cores = s.cores
    wmapWf regReset s.regs.val = true →
    (hours = 0 → exec (.hbmPatrol l) s = .next s) ∧ (secs = 0 → exec (.vsScrub l) s = .next s) ∧
    (hours ≠ 0 → a < 0x400000000 → spaceOf s a = .hbm →
      (e.corrected = true → limit = 0 ∨ n ≤ limit →
        ∃ t, exec (.hbmPatrol [e]) s = .next t ∧ counts t Reg.MEM_CE_COUNT ∧ t.poison = s.poison ∧ t.memc.retiredPc = s.memc.retiredPc) ∧
      (e.corrected = true → limit ≠ 0 → limit < n → s.memc.retiredPc = none →
        ∃ t, exec (.hbmPatrol [e]) s = .next t ∧ t.memc.retiredPc.map Fin.val = some pc ∧ t.memc.migrating = true) ∧
      (e.corrected = false → recent s s.memc.uePc pc = 0 →
        ∃ t, exec (.hbmPatrol [e]) s = .next t ∧ counts t Reg.MEM_UE_COUNT ∧ poisoned t a = true ∧ t.memc.retiredPc = s.memc.retiredPc) ∧
      (e.corrected = false → 0 < recent s s.memc.uePc pc → s.memc.retiredPc = none →
        ∃ t, exec (.hbmPatrol [e]) s = .next t ∧ t.memc.retiredPc.map Fin.val = some pc ∧ t.memc.migrating = true)) ∧
    (secs ≠ 0 → 0x800000000 ≤ a → a < 0x804000000 →
      (e.corrected = true → s.regF Reg.MEM_CE_LIMIT 7 0 = 0 ∨ recent s s.memc.ceBank (bankOf a) < s.regF Reg.MEM_CE_LIMIT 7 0 →
        ∃ t, exec (.vsScrub [e]) s = .next t ∧ counts t Reg.MEM_CE_COUNT ∧ t.poison = s.poison ∧ t.memc.copying = s.memc.copying) ∧
      (e.corrected = false → s.memc.copying = none → s.memc.copyWait = [] → s.memc.spares.contains (some (bankOf a)) = false → s.memc.spares.contains none = true →
        ∃ t, exec (.vsScrub [e]) s = .next t ∧ counts t Reg.MEM_UE_COUNT ∧ poisoned t a = true ∧ t.memc.copying = some (bankOf a))) ∧
    (s.memc.migrating = true → exec (.migrationDone []) s = .next { s with memc := { s.memc with migrating := false } }) ∧
    (s.memc.migrating = true → a < 0x3F0000000 →
      ∃ t, exec (.migrationDone [e.addr]) s = .next t ∧ counts t Reg.MEM_UE_COUNT ∧ poisoned t a = true ∧ t.memc.migrating = false) ∧
    (s.memc.copying = some b → s.memc.copyWait = rest → s.memc.spares.contains (some b) = false → s.memc.spares.findIdx? (·.isNone) = some i →
      ∃ t, exec .spareBankCopyDone s = .next t ∧ t.memc.spares = s.memc.spares.set i (some b) ∧ t.memc.copying = rest.head? ∧ t.memc.copyWait = rest.tail ∧ t.mem = s.mem)

/-- R193, R338, R339, R340: a VIN-fail stops the dispatcher, powers every course off and puts the front lights low, and the credit wait fixes the image that the slot is to hold. R57: the slot after the latest one holds the image, with SEQ one above. R341: at the end of the hold-up a start of cause 0x8 is due, and where VIN is not back the main domain is off and its memories are lost. R58, R441: a queued write of a channel ends, and a channel whose write has failed after 3 retries is lost. -/
def Obligations.StopsWriteTheJournal : Prop :=
  ∀ (s : State) (src : VinSource) (vin : BitVec 9) (img : List JRec) (ch : Fin 4) (e : Nat × Nat × Nat × List (Nat × Word)) (r : Region),
    let p := s.power
    let fails : Prop := match src with | .vin => vin.toNat < vinThr s ∧ p.vinLow = false | .pfail => s.regF Reg.RL_VINCFG 15 15 = 1 | .mainPg => s.boot.pwrEn = true ∧ s.boot.mainPg = false
    let live := journalImage { s with disp := { s.disp with stopped := false } }
    let recs := img.flatMap JRec.words
    let slot := match latestSlot s with | some n => (n + 1) % 4096 | none => 0
    let tried := ssTries s e
    let seq := match latestSlot s with | some n => (slotSeq s n + 1) % 4294967296 | none => 1
    wmapWf regReset s.regs.val = true → wmapWf (fun _ => 0) s.mem = true →
    (s.boot.mainOn = true → fails → p.vinf = false → p.vinStep = 0 →
      ∃ t, exec (.vinFail src vin) s = .next t ∧ t.power.vinf = true ∧ t.power.vinStep = 1 ∧ t.disp.stopped = true ∧ t.reg Reg.RL_VIN = vin.toNat ∧
        (∀ co : CourseId, (t.course co.val).flEn = false ∧ (t.course co.val).flPwm = false ∧
          ((s.course co.val).rail = .up ∨ (s.course co.val).rail = .rising → (t.course co.val).rail = .falling)) ∧ t.mem = s.mem ∧ t.cores = s.cores) ∧
    (p.vinStep = 1 → slotTaken s = true → s.ssWords ≠ 0 →
      exec .vinFailCreditWaitEnd s = .next { s with disp := { s.disp with image := live }, power := { p with vinStep := 3 }, boot := { s.boot with jrnSlot := some live } }) ∧
    (s.boot.jrnSlot = some img → p.vinStep = 3 → p.vinf = true → s.side.curReset = none →
      ∃ t, exec .journalSlotDurable s = .next t ∧ t.boot.jrnSlot = none ∧ t.power.vinStep = 5 ∧
        (∀ j < 32 + recs.length, some (memGet t (ssAddr (slotBase slot + j))) = (slotWords seq 0 recs)[j]?) ∧
        (∀ a, (∀ j < 32 + recs.length, a ≠ ssAddr (slotBase slot + j)) → memGet t a = memGet s a) ∧ t.cores = s.cores ∧ t.disp = s.disp) ∧
    (p.vinf = true →
      (∃ t, exec (.holdUpEnd true) s = .next t ∧ t.boot.cause = 8 ∧ t.boot.inReset = true ∧ t.power.vinf = false ∧ t.mem = s.mem ∧ ∀ c : CoreId, c ≠ 17 → t.core c.val = State.reset.core c.val) ∧
      (∃ t, exec (.holdUpEnd false) s = .next t ∧ t.boot.cause = 8 ∧ t.boot.inReset = true ∧ t.boot.pwrEn = false ∧ t.boot.mainOn = false ∧ t.power.st = .sleep ∧
        (∀ a, a < 0x804000000 → memGet t a = 0) ∧ ∀ a, 0xA00000000 ≤ a → memGet t a = memGet s a)) ∧
    (ssNext s ch.val = some e → dozing s = false →
      (tried < 3 → ∃ t, exec (.stateStoreWriteDone ch false) s = .next t ∧ t = { s with memc := { s.memc with ssFails := t.memc.ssFails } } ∧ ssTries t e = tried + 1) ∧
      (3 ≤ tried → ∃ t, exec (.stateStoreWriteDone ch false) s = .next t ∧ t.memc.ssLost = true ∧ t.aon.ssLoss = true) ∧
      (e.2.1 = 2 → s.region e.2.2.1 = some r → r.tgtDur = false → s.memc.ssLost = false → s.disp.stopped = false →
        (∀ x ∈ s.memc.ssq.erase e, ¬ (x.2.1 = 2 ∧ x.2.2.1 = e.2.2.1)) →
        ∃ t, exec (.stateStoreWriteDone ch true) s = .next t ∧ t.mem = (ssApply s e.2.2.2).mem ∧ t.memc.ssq = s.memc.ssq.erase e ∧ ssTries t e = 0 ∧
          t.region e.2.2.1 = some { r with tgtDur := true }))

/-! Control cores: the operand stack (R202, R232, R235, R236) -/

/-- R235: the STK instructions on words, in every condition that their form can name; each takes 1 cycle and sets no flag. R235, R236: the STK instructions on 32-bit values, PICK, and the constants. -/
def Obligations.StackOperationsLeaveTheirEntries : Prop :=
  (∀ (s : State) (c : CoreId) (cond : Cond) (base : List Word) (x y z : Word), Fires s c cond 1 →
    (Holds (s.core c.val) base → Computes s (exec (.nop c cond) s) c 1 1 base {}) ∧
    (Holds (s.core c.val) (base ++ [x]) → Room (s.core c.val) (base.length + 2) →
      Computes s (exec (.dup c cond) s) c 1 1 (base ++ [x, x]) {}) ∧
    (Holds (s.core c.val) (base ++ [x]) → Computes s (exec (.drop c cond) s) c 1 1 base {}) ∧
    (Holds (s.core c.val) (base ++ [x, y]) → Computes s (exec (.swap c cond) s) c 1 1 (base ++ [y, x]) {}) ∧
    (Holds (s.core c.val) (base ++ [x, y]) → Room (s.core c.val) (base.length + 3) →
      Computes s (exec (.over c cond) s) c 1 1 (base ++ [x, y, x]) {}) ∧
    (Holds (s.core c.val) (base ++ [x, y, z]) → Computes s (exec (.rot c cond) s) c 1 1 (base ++ [y, z, x]) {}) ∧
    (Holds (s.core c.val) (base ++ [x, y]) → Computes s (exec (.nip c cond) s) c 1 1 (base ++ [y]) {}) ∧
    (Holds (s.core c.val) (base ++ [x, y]) → Room (s.core c.val) (base.length + 3) →
      Computes s (exec (.tuck c cond) s) c 1 1 (base ++ [y, x, y]) {})) ∧
  (∀ (s : State) (c : CoreId) (cond : Cond) (base above : List Word) (x0 x1 y0 y1 imm : Word) (v : Byte) (k : Fin 16),
    (Fires s c cond 1 →
      (Holds (s.core c.val) (base ++ [x0, x1]) → Room (s.core c.val) (base.length + 4) →
        Computes s (exec (.dup2 c cond) s) c 1 1 (base ++ [x0, x1, x0, x1]) {}) ∧
      (Holds (s.core c.val) (base ++ [x0, x1]) → Computes s (exec (.drop2 c cond) s) c 1 1 base {}) ∧
      (Holds (s.core c.val) (base ++ [x0, x1, y0, y1]) → Computes s (exec (.swap2 c cond) s) c 1 1 (base ++ [y0, y1, x0, x1]) {}) ∧
      (Holds (s.core c.val) (base ++ [x0, x1, y0, y1]) → Room (s.core c.val) (base.length + 6) →
        Computes s (exec (.over2 c cond) s) c 1 1 (base ++ [x0, x1, y0, y1, x0, x1]) {}) ∧
      (above.length = k.val → Holds (s.core c.val) (base ++ x0 :: above) → Room (s.core c.val) (base.length + k.val + 2) →
        Computes s (exec (.pick c cond k) s) c 1 1 (base ++ x0 :: above ++ [x0]) {}) ∧
      (Holds (s.core c.val) base → Room (s.core c.val) (base.length + 1) →
        Computes s (exec (.psh c cond v) s) c 1 1 (base ++ [v.signExtend 16]) {}) ∧
      (Holds (s.core c.val) (base ++ [x0]) →
        Computes s (exec (.ldh c cond v) s) c 1 1 (base ++ [v ++ x0.setWidth 8]) {})) ∧
    (Fires s c cond 2 → Holds (s.core c.val) base → Room (s.core c.val) (base.length + 1) →
      Computes s (exec (.pshw c cond imm) s) c 2 2 (base ++ [imm]) {}))

/-- R232, R206, R245: an address goes between the stack and a register in three entries, without a step; ADDA steps a linear register; SETAM sets MODE and BRW of a mode that is valid for its register. -/
def Obligations.AddressRegistersTakeAndGiveAddresses : Prop :=
  ∀ (s : State) (c : CoreId) (cond : Cond) (base : List Word) (x0 x1 x2 imm : Word) (n : Fin 8) (a : Addr),
    (Fires s c cond 1 → Holds (s.core c.val) (base ++ [x0, x1, x2]) →
      Leaves s (exec (.toa c cond n) s) c 1 1 { s.core c.val with a := (s.core c.val).a.set n.val (x2.setWidth 4 ++ x1 ++ x0) } base {}) ∧
    (Fires s c cond 1 → Holds (s.core c.val) base → Room (s.core c.val) (base.length + 3) → (s.core c.val).a[n.val]? = some a →
      Computes s (exec (.froma c cond n) s) c 1 1 (base ++ [a.setWidth 16, (a >>> 16).setWidth 16, (a >>> 32).setWidth 16]) {}) ∧
    (Fires s c cond 2 → Holds (s.core c.val) base → (s.core c.val).a[n.val]? = some a →
      (4 ≤ n.val ∨ ((s.core c.val).am.getD n.val ⟨0, 0, 0, 0⟩).mode = 0) →
      Leaves s (exec (.adda c cond n imm) s) c 2 2 { s.core c.val with a := (s.core c.val).a.set n.val (a + imm.signExtend 36) } base {}) ∧
    (Fires s c cond 2 → Holds (s.core c.val) base → (setamDecodes n.val imm.toNat).fault s c.val = none →
      Leaves s (exec (.setam c cond n imm) s) c 2 2
        { s.core c.val with am := (s.core c.val).am.modify n.val fun m => { m with mode := imm.setWidth 2, brw := (imm >>> 2).setWidth 5 } } base {})

/-! Integer arithmetic (R237 to R241) -/

/-- R237: additions, subtractions and the compare, on words and on 32-bit values. R237: logic, which leaves C unchanged and clears V, and the selections, which set Z and N only. -/
def Obligations.AdditionsLogicAndSelectionsFollowTable84 : Prop :=
  (∀ (s : State) (c : CoreId) (cond : Cond) (w : Bool) (base : List Word) (a b : BitVec (wWidth w)), Fires s c cond 1 →
    Holds (s.core c.val) (base ++ (valueWords w a ++ valueWords w b)) →
    let cy := BitVec.ofNat (wWidth w) (b2n (s.core c.val).cf)
    Computes s (exec (.add c cond w) s) c 1 1 (base ++ valueWords w (a + b))
      { resultFlags (a + b) with c := some (decide (2 ^ wWidth w ≤ a.toNat + b.toNat)), v := some (decide ((a + b).toInt ≠ a.toInt + b.toInt)) } ∧
    Computes s (exec (.adc c cond w) s) c 1 1 (base ++ valueWords w (a + b + cy))
      { resultFlags (a + b + cy) with c := some (decide (2 ^ wWidth w ≤ a.toNat + b.toNat + cy.toNat)), v := some (decide ((a + b + cy).toInt ≠ a.toInt + b.toInt + cy.toNat)) } ∧
    Computes s (exec (.sub c cond w) s) c 1 1 (base ++ valueWords w (a - b))
      { resultFlags (a - b) with c := some (decide (a.toNat < b.toNat)), v := some (decide ((a - b).toInt ≠ a.toInt - b.toInt)) } ∧
    Computes s (exec (.sbc c cond w) s) c 1 1 (base ++ valueWords w (a - b - cy))
      { resultFlags (a - b - cy) with c := some (decide (a.toNat < b.toNat + cy.toNat)), v := some (decide ((a - b - cy).toInt ≠ a.toInt - b.toInt - cy.toNat)) } ∧
    Computes s (exec (.cmp c cond w) s) c 1 1 base
      { resultFlags (a - b) with c := some (decide (a.toNat < b.toNat)), v := some (decide ((a - b).toInt ≠ a.toInt - b.toInt)), t := some (a - b == 0) }) ∧
  (∀ (s : State) (c : CoreId) (cond : Cond) (w : Bool) (base : List Word) (a b : BitVec (wWidth w)), Fires s c cond 1 →
    Holds (s.core c.val) (base ++ (valueWords w a ++ valueWords w b)) →
    let picks (i : Instr) (r : BitVec (wWidth w)) : Prop := Computes s (exec i s) c 1 1 (base ++ valueWords w r) (resultFlags r)
    let logic (i : Instr) (r : BitVec (wWidth w)) : Prop := Computes s (exec i s) c 1 1 (base ++ valueWords w r) { resultFlags r with v := some false }
    logic (.and c cond w) (a &&& b) ∧ logic (.or c cond w) (a ||| b) ∧ logic (.xor c cond w) (a ^^^ b) ∧ logic (.andn c cond w) (a &&& ~~~b) ∧
    picks (.mins c cond w) (if a.slt b then a else b) ∧ picks (.maxs c cond w) (if a.slt b then b else a) ∧
    picks (.minu c cond w) (if a.ult b then a else b) ∧ picks (.maxu c cond w) (if a.ult b then b else a))

/-- R237: the operations on one operand, the width extensions included. R238: ALUI, its operand sign-extended for ADD to CMP and zero-extended for the logic. -/
def Obligations.OneOperandAndImmediateArithmeticFollowTable84 : Prop :=
  (∀ (s : State) (c : CoreId) (cond : Cond) (w : Bool) (base : List Word) (a : BitVec (wWidth w)) (x : Word), Fires s c cond 1 →
    (Holds (s.core c.val) (base ++ valueWords w a) →
      Computes s (exec (.neg c cond w) s) c 1 1 (base ++ valueWords w (-a))
        { resultFlags (-a) with c := some (a != 0), v := some (a == BitVec.intMin (wWidth w)) } ∧
      Computes s (exec (.inc c cond w) s) c 1 1 (base ++ valueWords w (a + 1))
        { resultFlags (a + 1) with c := some (a == BitVec.allOnes (wWidth w)), v := some (a == BitVec.intMax (wWidth w)) } ∧
      Computes s (exec (.dcr c cond w) s) c 1 1 (base ++ valueWords w (a - 1))
        { resultFlags (a - 1) with c := some (a == 0), v := some (a == BitVec.intMin (wWidth w)) } ∧
      Computes s (exec (.not c cond w) s) c 1 1 (base ++ valueWords w (~~~a)) { resultFlags (~~~a) with v := some false } ∧
      Computes s (exec (.tst c cond w) s) c 1 1 (base ++ valueWords w a) { resultFlags a with v := some false, t := some (a == 0) } ∧
      Computes s (exec (.abs c cond w) s) c 1 1 (base ++ valueWords w (if a.msb then -a else a))
        { resultFlags (if a.msb then -a else a) with v := some (a == BitVec.intMin (wWidth w)) }) ∧
    (Holds (s.core c.val) (base ++ [x]) → Room (s.core c.val) (base.length + 2) →
      Computes s (exec (.exts c cond) s) c 1 1 (base ++ valueWords true (x.signExtend 32)) (resultFlags (x.signExtend 32)) ∧
      Computes s (exec (.extz c cond) s) c 1 1 (base ++ valueWords true (x.zeroExtend 32)) (resultFlags (x.zeroExtend 32)))) ∧
  (∀ (s : State) (c : CoreId) (cond : Cond) (w : Bool) (base : List Word) (a : BitVec (wWidth w)) (imm : Word), Fires s c cond 2 →
    Holds (s.core c.val) (base ++ valueWords w a) →
    let b := imm.signExtend (wWidth w)
    let z := imm.zeroExtend (wWidth w)
    let cy := BitVec.ofNat (wWidth w) (b2n (s.core c.val).cf)
    let logic (i : Instr) (r : BitVec (wWidth w)) : Prop := Computes s (exec i s) c 2 2 (base ++ valueWords w r) { resultFlags r with v := some false }
    Computes s (exec (.aluiAdd c cond w imm) s) c 2 2 (base ++ valueWords w (a + b))
      { resultFlags (a + b) with c := some (decide (2 ^ wWidth w ≤ a.toNat + b.toNat)), v := some (decide ((a + b).toInt ≠ a.toInt + b.toInt)) } ∧
    Computes s (exec (.aluiAdc c cond w imm) s) c 2 2 (base ++ valueWords w (a + b + cy))
      { resultFlags (a + b + cy) with c := some (decide (2 ^ wWidth w ≤ a.toNat + b.toNat + cy.toNat)), v := some (decide ((a + b + cy).toInt ≠ a.toInt + b.toInt + cy.toNat)) } ∧
    Computes s (exec (.aluiSub c cond w imm) s) c 2 2 (base ++ valueWords w (a - b))
      { resultFlags (a - b) with c := some (decide (a.toNat < b.toNat)), v := some (decide ((a - b).toInt ≠ a.toInt - b.toInt)) } ∧
    Computes s (exec (.aluiSbc c cond w imm) s) c 2 2 (base ++ valueWords w (a - b - cy))
      { resultFlags (a - b - cy) with c := some (decide (a.toNat < b.toNat + cy.toNat)), v := some (decide ((a - b - cy).toInt ≠ a.toInt - b.toInt - cy.toNat)) } ∧
    Computes s (exec (.aluiCmp c cond w imm) s) c 2 2 base
      { resultFlags (a - b) with c := some (decide (a.toNat < b.toNat)), v := some (decide ((a - b).toInt ≠ a.toInt - b.toInt)), t := some (a - b == 0) } ∧
    logic (.aluiAnd c cond w imm) (a &&& z) ∧ logic (.aluiOr c cond w imm) (a ||| z) ∧ logic (.aluiXor c cond w imm) (a ^^^ z))

/-- R239: what the shifts leave for the count that their field or, where the field is 0, their top entry gives. R240, R241: products of 32 and 48 bits; quotients and remainders by a divisor other than 0, with the one overflow of DIVS. That REM leaves one word, with Z and N of 16 bits, is the model's choice (log entry 55). -/
def Obligations.ShiftsProductsAndQuotientsFollowTable86 : Prop :=
  (∀ (s : State) (c : CoreId) (cond : Cond) (base : List Word) (a : Word) (d : BitVec 32) (x : Word) (n : Fin 32), Fires s c cond 1 →
    let count := if n = 0 then x.toNat % 64 else n.val
    let top := if n = 0 then [x] else []
    let does {w : Nat} (o : Out) (r : BitVec w) (out : Bool) : Prop :=
      Computes s o c 1 1 (base ++ wordsOfNat (w / 16) r.toNat) { resultFlags r with c := if count = 0 then none else some out, v := some false }
    (Holds (s.core c.val) (base ++ ([a] ++ top)) →
      does (exec (.shl c cond n) s) (a <<< count) (decide (count ≤ 16) && a.getLsbD (16 - count)) ∧
      does (exec (.shr c cond n) s) (a >>> count) (a.getLsbD (count - 1)) ∧
      does (exec (.sar c cond n) s) (a.sshiftRight count) (if count ≤ 16 then a.getLsbD (count - 1) else a.msb) ∧
      does (exec (.rol c cond n) s) (a.rotateLeft count) ((a.rotateLeft count).getLsbD 0)) ∧
    (Holds (s.core c.val) (base ++ (valueWords true d ++ top)) →
      does (exec (.shlD c cond n) s) (d <<< count) (decide (count ≤ 32) && d.getLsbD (32 - count)) ∧
      does (exec (.shrD c cond n) s) (d >>> count) (d.getLsbD (count - 1)) ∧
      does (exec (.sarD c cond n) s) (d.sshiftRight count) (if count ≤ 32 then d.getLsbD (count - 1) else d.msb) ∧
      does (exec (.rolD c cond n) s) (d.rotateLeft count) ((d.rotateLeft count).getLsbD 0))) ∧
  (∀ (s : State) (c : CoreId) (cond : Cond) (base : List Word) (a b : Word) (d : BitVec 32), Fires s c cond 1 →
    (Holds (s.core c.val) (base ++ [a, b]) →
      let u := a.zeroExtend 32 * b.zeroExtend 32
      let g := a.signExtend 32 * b.signExtend 32
      Computes s (exec (.mul c cond) s) c 1 5 (base ++ valueWords true u)
        { resultFlags u with c := some (u.toNat / 65536 != 0), v := some false } ∧
      Computes s (exec (.muls c cond) s) c 1 5 (base ++ valueWords true g)
        { resultFlags g with c := some (g != (g.setWidth 16).signExtend 32), v := some false }) ∧
    (Holds (s.core c.val) (base ++ (valueWords true d ++ [b])) → Room (s.core c.val) (base.length + 3) →
      let p : BitVec 48 := d.zeroExtend 48 * b.zeroExtend 48
      Computes s (exec (.mul32 c cond) s) c 1 9 (base ++ wordsOfNat 3 p.toNat)
        { resultFlags p with c := some (p.toNat / 4294967296 != 0), v := some false }) ∧
    (b ≠ 0 → Holds (s.core c.val) (base ++ (valueWords true d ++ [b])) →
      let q := d / b.zeroExtend 32
      let r := (d % b.zeroExtend 32).setWidth 16
      let tooLarge := d = BitVec.intMin 32 ∧ b = BitVec.allOnes 16
      let g := if tooLarge then BitVec.intMax 32 else d.sdiv (b.signExtend 32)
      Computes s (exec (.div c cond) s) c 1 18 (base ++ valueWords true q) { resultFlags q with c := some false, v := some false } ∧
      Computes s (exec (.divs c cond) s) c 1 19 (base ++ valueWords true g) { resultFlags g with c := some false, v := some (decide tooLarge) } ∧
      Computes s (exec (.rem c cond) s) c 1 18 (base ++ [r]) { resultFlags r with c := some false, v := some false }))

/-! Control cores: packed decimal, bits and CRC (R242 to R244) -/

/-- R242, Table 8.7: the decimal instructions leave the result and the flags that the digit steps give, on any operands. R242: the digit steps, in both directions: each digit of the result and the carry or borrow into the next digit, D the last one, V where a digit of an operand exceeds 9, N and Z of the result, and C unchanged; so on operands whose digits are all at most 9 they add and subtract the numbers that the digits weigh. -/
def Obligations.DecimalInstructionsFollowTable87 : Prop :=
  (∀ (s : State) (c : CoreId) (cond : Cond) (w : Bool) (base : List Word) (a b : BitVec (wWidth w)), Fires s c cond 1 →
    let n := decDigits w
    let dc := b2n (s.core c.val).d
    let gives (i : Instr) (r : Nat × FlagUpd) : Prop := Computes s (exec i s) c 1 1 (base ++ valueWords w (BitVec.ofNat _ r.1)) r.2
    (Holds (s.core c.val) (base ++ (valueWords w a ++ valueWords w b)) →
      gives (.dadd c cond w) (daddF n a.toNat b.toNat 0) ∧ gives (.dadc c cond w) (daddF n a.toNat b.toNat dc) ∧
      gives (.dsub c cond w) (dsubF n a.toNat b.toNat 0) ∧ gives (.dsbc c cond w) (dsubF n a.toNat b.toNat dc) ∧
      Computes s (exec (.dcmp c cond w) s) c 1 1 base { (dsubF n a.toNat b.toNat 0).2 with t := (dsubF n a.toNat b.toNat 0).2.z }) ∧
    (Holds (s.core c.val) (base ++ valueWords w a) →
      gives (.dneg c cond w) (dsubF n 0 a.toNat 0) ∧
      Computes s (exec (.cvtdb c cond w) s) c 1 1 (base ++ valueWords w (BitVec.ofNat _ (fromBcd n a.toNat)))
        { z := some (decide (fromBcd n a.toNat = 0)), v := some (decide (∃ i < n, 9 < bcdDigit a.toNat i)) } ∧
      (Room (s.core c.val) (base.length + 2) →
        Computes s (exec (.cvtbd c cond w) s) c 1 1 (base ++ valueWords true (BitVec.ofNat _ (toBcd 8 (a.toNat % 100000000))))
          { z := some (decide (a.toNat % 100000000 = 0)), v := some (decide (99999999 < a.toNat)) }))) ∧
  (∀ (n a b cy : Nat),
    let sum := daddF n a b cy
    let dif := dsubF n a b cy
    let flags (r : Nat × FlagUpd) (d : Bool) : Prop := r.2 = { z := some (decide (r.1 = 0)), n := some (decide (5 ≤ bcdDigit r.1 (n - 1))), c := none, d := some d,
                                                               v := some (decide (∃ i < n, 9 < bcdDigit a i ∨ 9 < bcdDigit b i)) }
    (∃ k : Nat → Nat, k 0 = cy ∧ flags sum (decide (k n = 1)) ∧ ∀ i < n,
      let x := bcdDigit a i + bcdDigit b i + k i
      k (i + 1) = (if 9 < x then 1 else 0) ∧ bcdDigit sum.1 i = (if 9 < x then x + 6 else x) % 16) ∧
    (∃ k : Nat → Nat, k 0 = cy ∧ flags dif (decide (k n = 1)) ∧ ∀ i < n,
      let x : Int := (bcdDigit a i : Int) - bcdDigit b i - k i
      k (i + 1) = (if x < 0 then 1 else 0) ∧ (bcdDigit dif.1 i : Int) = (if x < 0 then x + 10 else x) % 16) ∧
    ((∀ i < n, bcdDigit a i ≤ 9 ∧ bcdDigit b i ≤ 9) → cy ≤ 1 →
      (∃ d : Bool, sum.2.d = some d ∧ fromBcd n sum.1 + 10 ^ n * b2n d = fromBcd n a + fromBcd n b + cy ∧ ∀ i < n, bcdDigit sum.1 i ≤ 9) ∧
      (∃ d : Bool, dif.2.d = some d ∧ fromBcd n dif.1 + fromBcd n b + cy = fromBcd n a + 10 ^ n * b2n d ∧ ∀ i < n, bcdDigit dif.1 i ≤ 9)))

/-- R243: the bit instructions, with T the old bit or the parity, and Z and N of the results that have them. R210, R243, R244: the CRC instructions run their steps from the most significant data bit down, and Z says whether CRCS is 0. -/
def Obligations.BitAndCrcInstructionsFollowTable88 : Prop :=
  (∀ (s : State) (c : CoreId) (cond : Cond) (base : List Word) (a : Word) (d : BitVec 32) (n : Fin 16), Fires s c cond 1 →
    let ones {w : Nat} (v : BitVec w) : Nat := ((List.range w).filter fun i => v.getLsbD i).length
    (Holds (s.core c.val) (base ++ [a]) →
      let bit : FlagUpd := { t := some (a.getLsbD n.val) }
      Computes s (exec (.btst c cond n) s) c 1 1 (base ++ [a]) bit ∧
      Computes s (exec (.bset c cond n) s) c 1 1 (base ++ [a ||| BitVec.twoPow 16 n.val]) bit ∧
      Computes s (exec (.bclr c cond n) s) c 1 1 (base ++ [a &&& ~~~(BitVec.twoPow 16 n.val)]) bit ∧
      Computes s (exec (.binv c cond n) s) c 1 1 (base ++ [a ^^^ BitVec.twoPow 16 n.val]) bit ∧
      (∃ r : Word, (∀ i < 16, r.getLsbD i = if i ≤ n.val then a.getLsbD (n.val - i) else a.getLsbD i) ∧
        Computes s (exec (.brev c cond n) s) c 1 1 (base ++ [r]) (resultFlags r)) ∧
      Computes s (exec (.popc c cond) s) c 1 1 (base ++ [BitVec.ofNat 16 (ones a)]) (resultFlags (BitVec.ofNat 16 (ones a))) ∧
      (∃ r : Nat, r ≤ 16 ∧ (∀ i < 16, 16 - r ≤ i → a.getLsbD i = false) ∧ (r < 16 → a.getLsbD (15 - r) = true) ∧
        Computes s (exec (.clz c cond) s) c 1 1 (base ++ [BitVec.ofNat 16 r]) (resultFlags (BitVec.ofNat 16 r))) ∧
      Computes s (exec (.par c cond) s) c 1 1 (base ++ [a]) { t := some (decide (ones a % 2 = 1)) }) ∧
    (Holds (s.core c.val) (base ++ valueWords true d) →
      Computes s (exec (.pard c cond) s) c 1 1 (base ++ valueWords true d) { t := some (decide (ones d % 2 = 1)) })) ∧
  (∀ (s : State) (c : CoreId) (cond : Cond) (base : List Word) (a imm : Word) (d : BitVec 32) (n : Fin 16),
    let k := s.core c.val
    let after (bits : List Bool) : Core := { k with crcs := crcOver k.crcp k.crcs bits }
    let zero (bits : List Bool) : FlagUpd := { z := some (crcOver k.crcp k.crcs bits == 0) }
    (Fires s c cond 1 → Holds k (base ++ [a]) →
      Leaves s (exec (.crc8 c cond) s) c 1 1 (after (bitsDown 8 a)) base (zero (bitsDown 8 a)) ∧
      Leaves s (exec (.crc16 c cond) s) c 1 1 (after (bitsDown 16 a)) base (zero (bitsDown 16 a))) ∧
    (Fires s c cond 1 → Holds k (base ++ valueWords true d) →
      Leaves s (exec (.crc32 c cond) s) c 1 1 (after (bitsDown 32 d)) base (zero (bitsDown 32 d))) ∧
    (Fires s c cond 2 → Holds k base →
      let bits := (bitsDown 16 imm).take (n.val + 1)
      Leaves s (exec (.crci c cond n imm) s) c 2 2 (after bits) base (zero bits)))

/-! Loads, stores and control flow (R245 to R252) -/

/-- R245: a load of words of the core's own local memory pushes them, with P = 0 and with P = 1, and steps its register only with P = 1. R245: a store of the top entries into the core's own local memory; every other word of memory keeps its value. -/
def Obligations.OwnMemoryLoadsAndStoresMoveTheirWords : Prop :=
  (∀ (s : State) (c : CoreId) (cond : Cond) (base : List Word) (n : Fin 8) (p : Bool) (o4 : BitVec 4) (o3 : BitVec 3) (o7 : BitVec 7) (imm : Word) (step : Nat),
    let k := s.core c.val
    let loads (i : Instr) (len cycles words : Nat) (r : Nat) (m : Nat × Option Nat) : Prop :=
      Fires s c cond len → Holds k base → Room k (base.length + words) → OwnAccess s c 0 words m step → Clean s c (addrsFrom m.1 words) →
      Leaves s (exec i s) c len cycles { k with a := k.a.set r (BitVec.ofNat 36 step) } (base ++ (addrsFrom m.1 words).map (ownRead s c.val)) {}
    loads (.ld c cond n p o4) 1 2 1 n.val (memOperand k n.val p o4.toInt) ∧
    loads (.ldd c cond n p o3) 1 3 2 n.val (memOperand k n.val p o3.toInt) ∧
    loads (.argLoad c cond o7) 1 2 1 7 (memOperand k 7 false o7.toNat) ∧
    loads (.ldx c cond n p imm) 2 3 1 n.val (memOperand k n.val p imm.toInt) ∧
    loads (.lddx c cond n p imm) 2 4 2 n.val (memOperand k n.val p imm.toInt)) ∧
  (∀ (s : State) (c : CoreId) (cond : Cond) (base : List Word) (x y : Word) (n : Fin 8) (p : Bool) (o4 : BitVec 4) (o3 : BitVec 3) (o7 : BitVec 7) (imm : Word) (step : Nat),
    wmapWf (fun _ => 0) s.mem = true →
    let k := s.core c.val
    let stores (i : Instr) (len cycles : Nat) (vs : List Word) (r : Nat) (m : Nat × Option Nat) : Prop :=
      Fires s c cond len → Holds k (base ++ vs) → OwnAccess s c 1 vs.length m step →
      LeavesStored s (exec i s) c len cycles { k with a := k.a.set r (BitVec.ofNat 36 step) } base (ownCells c m.1 vs)
    stores (.st c cond n p o4) 1 2 [x] n.val (memOperand k n.val p o4.toInt) ∧
    stores (.std c cond n p o3) 1 3 [x, y] n.val (memOperand k n.val p o3.toInt) ∧
    stores (.argStore c cond o7) 1 2 [x] 7 (memOperand k 7 false o7.toNat) ∧
    stores (.stx c cond n p imm) 2 3 [x] n.val (memOperand k n.val p imm.toInt) ∧
    stores (.stdx c cond n p imm) 2 4 [x, y] n.val (memOperand k n.val p imm.toInt))

/-- R217, R245: a load of one or two words of far memory, with P = 0 and with P = 1, and an argument load, issues in its count and leaves its entries pending, as one far load; a store of one or two words to far memory is posted as one, while fewer than 8 wait. R217, R222, R272: the data of the oldest far load, of one word or of two, arrives in its entries; the oldest posted store reaches its memory; a late bus error is queued, or counted once 4 are. -/
def Obligations.FarAccessesArePostedAndComplete : Prop :=
  (∀ (s : State) (c : CoreId) (cond : Cond) (base : List Word) (x y : Word) (n : Fin 8) (p : Bool) (o4 : BitVec 4) (o3 : BitVec 3) (o7 : BitVec 7) (imm : Word) (step : Nat),
    let k := s.core c.val
    let goes (i : Instr) (len cycles : Nat) (k' : Core) : Prop := ∃ t, exec i s = .next t ∧ After s t c (k.pc + BitVec.ofNat 36 len) cycles k'
    let pends (i : Instr) (len cycles words : Nat) (r : Nat) (m : Nat × Option Nat) : Prop :=
      Fires s c cond len → Holds k base → Room k (base.length + words) → m.2 = some step → winGrants k 0 (addrsFrom m.1 words) = true →
      (∀ a ∈ addrsFrom m.1 words, ∃ ro, coreReach s c.val a = .far ro) →
      goes i len cycles { k with
        a := k.a.set r (BitVec.ofNat 36 step), depth := base.length + words, fence := []
        far := [⟨BitVec.ofNat 36 m.1, base.length, words == 2, k.fence, k.posted.length, none⟩] }
    let posts (i : Instr) (len cycles : Nat) (lo : Word) (hi : Option Word) (r : Nat) (m : Nat × Option Nat) : Prop :=
      let vs := lo :: hi.toList
      Fires s c cond len → Holds k (base ++ vs) → (k.posted.filter (!·.isRing)).length < 8 → m.2 = some step → winGrants k 1 (addrsFrom m.1 vs.length) = true →
      (∀ a ∈ addrsFrom m.1 vs.length, coreReach s c.val a = .far false) →
      goes i len cycles { k with
        a := k.a.set r (BitVec.ofNat 36 step), depth := base.length, posted := k.posted ++ [⟨false, BitVec.ofNat 36 m.1, lo, hi, BitVec.ofNat 2 k.ring⟩] }
    pends (.ld c cond n p o4) 1 2 1 n.val (memOperand k n.val p o4.toInt) ∧
    pends (.ldd c cond n p o3) 1 3 2 n.val (memOperand k n.val p o3.toInt) ∧
    pends (.argLoad c cond o7) 1 2 1 7 (memOperand k 7 false o7.toNat) ∧
    pends (.ldx c cond n p imm) 2 3 1 n.val (memOperand k n.val p imm.toInt) ∧
    pends (.lddx c cond n p imm) 2 4 2 n.val (memOperand k n.val p imm.toInt) ∧
    posts (.st c cond n p o4) 1 2 x none n.val (memOperand k n.val p o4.toInt) ∧
    posts (.std c cond n p o3) 1 3 x (some y) n.val (memOperand k n.val p o3.toInt) ∧
    posts (.argStore c cond o7) 1 2 x none 7 (memOperand k 7 false o7.toNat) ∧
    posts (.stx c cond n p imm) 2 3 x none n.val (memOperand k n.val p imm.toInt) ∧
    posts (.stdx c cond n p imm) 2 4 x (some y) n.val (memOperand k n.val p imm.toInt)) ∧
  (∀ (s : State) (c : CoreId) (f : FarLoad) (fs : List FarLoad) (p : Posted) (ps : List Posted) (key key2 : Nat) (store ring poisoned_ refused : Bool) (a : Addr),
    let k := s.core c.val
    let kind := BitVec.ofNat 4 (8 * b2n store + 4 * b2n ring + 2 * b2n poisoned_ + b2n refused)
    c.val < s.cores.length →
    (k.far = f :: fs → f.dbl = false → f.got = none → f.before = 0 → f.fence = [] → storeKey s f.addr.toNat = some key → (∀ o, spaceOf s f.addr.toNat ≠ .store o) → poisoned s key = false →
      exec (.farLoadData c false) s = .next (s.updCore c.val fun k => { k with stack := k.stack.set f.pos (memGet s key), far := fs, stalled := false })) ∧
    (k.far = f :: fs → f.dbl = true → f.got = none → f.before = 0 → f.fence = [] → storeKey s f.addr.toNat = some key → storeKey s ((f.addr.toNat + 1) % 2 ^ 36) = some key2 →
      (∀ o, spaceOf s f.addr.toNat ≠ .store o) → (∀ o, spaceOf s ((f.addr.toNat + 1) % 2 ^ 36) ≠ .store o) → poisoned s key = false → poisoned s key2 = false →
      exec (.farLoadData c false) s = .next (s.updCore c fun k => { k with stack := (k.stack.set f.pos (memGet s key)).set (f.pos + 1) (memGet s key2), far := fs, stalled := false })) ∧
    (wmapWf (fun _ => 0) s.mem = true → k.far = [] → k.posted = p :: ps → p.isRing = false → p.hi = none → storeKey s p.addr.toNat = some key →
      ∃ t, exec (.postedStorePerformed c) s = .next t ∧ t.core c.val = { k with posted := ps, stalled := false } ∧
        (∀ d, d ≠ c.val → t.core d = s.core d) ∧ ∀ x, memGet t x = if x = key then p.lo else memGet s x) ∧
    (k.running = true →
      exec (.lateBusError c store ring poisoned_ refused a) s = .next (s.updCore c.val fun k =>
        if k.lbe.length < 4 then { k with lbe := k.lbe ++ [⟨kind, a⟩] } else { k with lbeLost := min 15 (k.lbeLost + 1) })))

/-- R247, R254: branches, loops, the absolute jump and SYNCI: the PC that each leaves, and LC counted modulo 2^16. -/
def Obligations.BranchesGoWhereTable811Says : Prop :=
  ∀ (s : State) (c : CoreId) (cond : Cond) (off : Byte) (imm : Word),
    let k := s.core c.val
    let goes (i : Instr) (pc : Addr) (cycles : Nat) (k' : Core) : Prop := ∃ t, exec i s = .next t ∧ After s t c pc cycles k'
    let counted : Core := { k with lc := k.lc - 1 }
    (Fires s c cond 1 →
      goes (.br c cond off) (k.pc + 1 + off.signExtend 36) 2 k ∧
      goes (.dbnz c cond off) (if k.lc = 1 then k.pc + 1 else k.pc + 1 + off.signExtend 36) 2 counted ∧
      goes (.synci c cond) (k.pc + 1) 9 k) ∧
    (Fires s c cond 2 →
      goes (.brl c cond imm) (k.pc + 2 + imm.signExtend 36) 2 k ∧
      goes (.dbnzl c cond imm) (if k.lc = 1 then k.pc + 2 else k.pc + 2 + imm.signExtend 36) 2 counted ∧
      goes (.jmpa c cond imm) (BitVec.ofNat 36 (localBase s c.val) + imm.zeroExtend 36) 2 k)

/-- R248, R249: REP and REPL complete before a word that can be repeated: they set RC and REPA, or skip that word where the count that they pop is 0. R248, R249: an instruction that may be repeated, issued while REPA = 1 and RC is not 0, runs once, its condition evaluated afresh, counts RC down and keeps the PC until RC is 0; then REPA clears and the PC goes on. One whose condition fails changes nothing else. Of those whose condition holds, the results are stated of DUP, DROP, ADD, ADC, AND, of the loads and stores of own memory, each with P = 0 and P = 1, and of the argument loads and stores. With RC = 0 none runs: REPA clears and the PC goes on at 0 cycles, which is the model's choice (log entry 15). -/
def Obligations.RepeatsCountTheirInstruction : Prop :=
  (∀ (s : State) (c : CoreId) (cond : Cond) (base : List Word) (x : Word) (n : Byte) (imm : Word) (cnt : Nat),
    let k := s.core c.val
    let runs (i : Instr) (len : Nat) (rc : Word) (l : List Word) : Prop :=
      Leaves s (exec i s) c len 1 { k with rc := rc, st := k.st ||| 0x200 } l {}
    (Fires s c cond 1 → repeatable s c.val 1 = some cnt →
      (n ≠ 0 → Holds k base → runs (.rep c cond n) 1 (n.zeroExtend 16) base) ∧
      (Holds k (base ++ [x]) → x ≠ 0 → runs (.rep c cond 0) 1 x base) ∧
      (Holds k (base ++ [0]) → Leaves s (exec (.rep c cond 0) s) c 2 (1 + cnt) { k with rc := 0 } base {})) ∧
    (Fires s c cond 2 → repeatable s c.val 2 = some cnt →
      (imm ≠ 0 → Holds k base → runs (.repl c cond imm) 2 imm base) ∧
      (Holds k (base ++ [x]) → x ≠ 0 → runs (.repl c cond 0) 2 x base) ∧
      (Holds k (base ++ [0]) → Leaves s (exec (.repl c cond 0) s) c 3 (1 + cnt) { k with rc := 0 } base {}))) ∧
  (∀ (s : State) (c : CoreId) (cond : Cond), Repeating s c →
    let k := s.core c.val
    (∀ (i : Instr) (cycles : Nat), i.coreForm = some (c, cond, 1, cycles) → i.repeats = true → i.wellFormed = true →
      (k.rc = 0 → ∃ t, exec i s = .next t ∧ After s t c (k.pc + 1) 0 { k with st := k.st &&& 0xFDFF }) ∧
      (∀ base, Holds k base → k.rc ≠ 0 → condHolds k cond = false → i.present c k.ring → Repeated s (exec i s) c cycles k base {} [])) ∧
    (k.rc ≠ 0 → condHolds k cond = true → cond.short = true → wmapWf (fun _ => 0) s.mem = true →
      ∀ (w : Bool) (base : List Word) (x y : Word) (a b : BitVec (wWidth w)),
      let cy := BitVec.ofNat (wWidth w) (b2n k.cf)
      let reps (i : Instr) (l : List Word) (f : FlagUpd) : Prop := Repeated s (exec i s) c 1 k l f []
      (Holds k (base ++ [x]) → reps (.drop c cond) base {} ∧ (Room k (base.length + 2) → reps (.dup c cond) (base ++ [x, x]) {})) ∧
      (Holds k (base ++ (valueWords w a ++ valueWords w b)) →
        reps (.add c cond w) (base ++ valueWords w (a + b))
          { resultFlags (a + b) with c := some (decide (2 ^ wWidth w ≤ a.toNat + b.toNat)), v := some (decide ((a + b).toInt ≠ a.toInt + b.toInt)) } ∧
        reps (.adc c cond w) (base ++ valueWords w (a + b + cy))
          { resultFlags (a + b + cy) with c := some (decide (2 ^ wWidth w ≤ a.toNat + b.toNat + cy.toNat)), v := some (decide ((a + b + cy).toInt ≠ a.toInt + b.toInt + cy.toNat)) } ∧
        reps (.and c cond w) (base ++ valueWords w (a &&& b)) { resultFlags (a &&& b) with v := some false }) ∧
      ∀ (n : Fin 8) (p : Bool) (o4 : BitVec 4) (o3 : BitVec 3) (o7 : BitVec 7) (step : Nat),
        let loads (i : Instr) (cycles words r : Nat) (m : Nat × Option Nat) : Prop :=
          Holds k base → Room k (base.length + words) → OwnAccess s c 0 words m step → Clean s c (addrsFrom m.1 words) →
          Repeated s (exec i s) c cycles { k with a := k.a.set r (BitVec.ofNat 36 step) } (base ++ (addrsFrom m.1 words).map (ownRead s c.val)) {} []
        let stores (i : Instr) (cycles : Nat) (vs : List Word) (r : Nat) (m : Nat × Option Nat) : Prop :=
          Holds k (base ++ vs) → OwnAccess s c 1 vs.length m step →
          Repeated s (exec i s) c cycles { k with a := k.a.set r (BitVec.ofNat 36 step) } base {} (ownCells c m.1 vs)
        loads (.ld c cond n p o4) 2 1 n.val (memOperand k n.val p o4.toInt) ∧
        loads (.ldd c cond n p o3) 3 2 n.val (memOperand k n.val p o3.toInt) ∧
        loads (.argLoad c cond o7) 2 1 7 (memOperand k 7 false o7.toNat) ∧
        stores (.st c cond n p o4) 2 [x] n.val (memOperand k n.val p o4.toInt) ∧
        stores (.std c cond n p o3) 3 [x, y] n.val (memOperand k n.val p o3.toInt) ∧
        stores (.argStore c cond o7) 2 [x] 7 (memOperand k 7 false o7.toNat)))

/-- R251, R252: CALL and CALLA write the frame of Table 8.13 below A7 and jump. That the last pair's words are LC and then A6 is the model's choice (log entry 55). R252: RET with the mask that a frame holds restores the registers of the pairs it names from the words of Table 8.13, adds the frame's size to A7 and returns; every other register keeps its value. `saved` is a core whose registers the frame holds. -/
def Obligations.CallsAndReturnsKeepTheirFrame : Prop :=
  (∀ (s : State) (c : CoreId) (cond : Cond) (m : BitVec 4) (imm : Word),
    let k := s.core c.val
    let ws := [offsetWord s c ((k.pc.toNat + 2) % 2 ^ 36), m.zeroExtend 16] ++ savedWords k m.toNat
    let fr := (k.addr 7 + 2 ^ 36 - ws.length) % 2 ^ 36
    wmapWf (fun _ => 0) s.mem = true → Fires s c cond 2 → OwnAccess s c 1 ws.length (fr, some fr) fr →
    let calls (i : Instr) (target : Addr) : Prop := ∃ t, exec i s = .next t ∧
      AfterStores s t c target (4 + 2 * maskCount m.toNat) { k with a := k.a.set 7 (BitVec.ofNat 36 fr) } (ownCells c fr ws)
    calls (.call c cond m imm) (k.pc + 2 + imm.signExtend 36) ∧ calls (.calla c cond m imm) (BitVec.ofNat 36 (localBase s c.val) + imm.zeroExtend 36)) ∧
  (∀ (s : State) (c : CoreId) (cond : Cond) (m : BitVec 4) (off : Word) (saved : Core),
    let k := s.core c.val
    let n := 2 + 6 * maskCount m.toNat
    Fires s c cond 1 → OwnAccess s c 0 n (k.addr 7, some 0) 0 → Clean s c (addrsFrom (k.addr 7) n) → k.a.length = 8 → saved.a.length = 8 →
    (addrsFrom (k.addr 7) n).map (ownRead s c.val) = [off, m.zeroExtend 16] ++ savedWords saved m.toNat →
    ∃ t, exec (.ret c cond m) s = .next t ∧
      After s t c (BitVec.ofNat 36 (localBase s c.val) + off.zeroExtend 36) (4 + 2 * maskCount m.toNat)
        { k with
          a := (List.range 8).map fun i => if i = 7 then BitVec.ofNat 36 (k.addr 7 + n) else if m.getLsbD (i / 2) then saved.a.getD i 0 else k.a.getD i 0
          lc := if m.getLsbD 3 then saved.lc else k.lc })

/-! Gates, exceptions and system instructions (R254, R255, R266 to R269, R273) -/

/-- R266: CALLG through a gate that passes Table 9.5 writes the gate frame below the new stack top, sets RING and goes to the target. R273: RETX through a frame that passes Table 9.8 restores ST but FPP, A7 and the PC, clears the stack above DEPTH where privilege falls, and clears DF where the frame is the double-fault frame; on the always-on core RING stays 0. With REPA = 1 in the frame (R250) the repetition goes on at the word returned to; one that cannot be repeated is an illegal instruction there, with REPA = 0, and with RC = 0 none is left. A core that has an event to take, or that cannot fetch the word, comes to that at its next issue (the model's choice: log entry 15). -/
def Obligations.GatesAndExceptionReturnsChangeRing : Prop :=
  (∀ (s : State) (c : CoreId) (cond : Cond) (g : Word) (target ring : Nat),
    let k := s.core c.val
    let fr := ((if ring < k.ring then (k.ssp.getD ring 0).toNat else k.addr 7) + 2 ^ 36 - 6) % 2 ^ 36
    wmapWf (fun _ => 0) s.mem = true → Fires s c cond 2 → c ≠ 17 → k.fpp = false → gateEntry s c.val g.toNat = .ok (target, ring) → (∀ a ∈ addrsFrom fr 6, isLocal s c.val a = true) →
    ring ≤ k.ring ∧ g.toNat < k.gcount.toNat ∧ ∃ t, exec (.callg c cond g) s = .next t ∧
      AfterStores s t c (BitVec.ofNat 36 (localBase s c.val + target)) 12
        { k with a := k.a.set 7 (BitVec.ofNat 36 fr), st := (k.st &&& 0xFF3F) ||| BitVec.ofNat 16 (64 * ring) }
        (ownCells c fr ([offsetWord s c ((k.pc.toNat + 2) % 2 ^ 36), k.st] ++ addrWords (BitVec.ofNat 36 (k.addr 7)) ++ [BitVec.ofNat 16 (0x1000 + g.toNat)]))) ∧
  (∀ (s : State) (c : CoreId) (cond : Cond) (off saved kw : Word) (a7 : Addr) (rest : List Word),
    let k := s.core c.val
    let n := if kw.toNat / 4096 = 2 then 10 else 6
    let back : Addr := BitVec.ofNat 36 (localBase s c.val) + off.zeroExtend 36
    let k' : Core := { k with
      a := k.a.set 7 a7, st := saved &&& (if c = 17 then 0xFB3F else 0xFBFF)
      df := k.df && decide (k.addr 7 ≠ (localBase s c.val + 0xFFF0) % 2 ^ 36)
      lbeHold := if k.lbeHold = k.a[7]? then none else k.lbeHold
      stack := if c ≠ 17 ∧ k.ring < saved.toNat / 64 % 4 then k.stack.take k.depth ++ List.replicate (k.stack.length - k.depth) 0 else k.stack }
    Fires s c cond 1 → k.fpp = false → (∀ a ∈ addrsFrom (k.addr 7) n, isLocal s c.val a = true) → Clean s c (addrsFrom (k.addr 7) n) →
    (addrsFrom (k.addr 7) n).map (ownRead s c.val) = [off, saved] ++ addrWords a7 ++ [kw] ++ rest →
    retxReason k kw.toNat saved.toNat = 0 →
    ∃ u, After s u c back 10 k' ∧
      let undone : State := u.updCore c.val fun x => { x with st := x.st &&& 0xFDFF }
      let calm : Prop := eventDue u c.val = false ∧ fetchFault u c.val back.toNat = none
      (saved.getLsbD 9 = false ∨ ¬ calm → exec (.retx c cond) s = .next u) ∧
      (saved.getLsbD 9 = true → calm → repeatable u c.val 0 ≠ none → k.rc ≠ 0 → exec (.retx c cond) s = .next u) ∧
      (saved.getLsbD 9 = true → calm → repeatable u c.val 0 ≠ none → k.rc = 0 →
        ∃ t, exec (.retx c cond) s = .next t ∧ After u t c (back + 1) 0 { k' with st := k'.st &&& 0xFDFF }) ∧
      ∀ h, wmapWf (fun _ => 0) s.mem = true → saved.getLsbD 9 = true → calm → repeatable u c.val 0 = none → EntryOpen undone c 0x01 h →
        ∃ t, exec (.retx c cond) s = .next t ∧ Enters undone t c 0x01 9 h (BitVec.ofNat 16 (winWord u c.val 0)) 0 back.toNat)

/-- R267, R268, R254: TRAP and TRAPL enter the handler of cause 0x10 with their code, and the frame records the instruction after them; with the entry they take 10 cycles. R267 to R269: at an instruction boundary the enabled interrupt of the lowest cause is taken, with the INFO and ADDR of its source, and the source is pending no longer, which is the model's reading (log entry 16); a core in WAIT returns behind the WAIT (R255). R267, R268, R202, R209, R213, R241: the precise exceptions of a stack that holds too few entries or too many, of a subnormal operand, of a privileged instruction in a ring that lacks it, and of a division by zero: the handler is entered after 1 and 8 cycles, the frame records the instruction, and the instruction leaves no effect of its own. -/
def Obligations.ExceptionsEnterTheirHandler : Prop :=
  (∀ (s : State) (c : CoreId) (cond : Cond) (n : Fin 16) (imm : Word) (h : Nat),
    wmapWf (fun _ => 0) s.mem = true → (s.core c.val).fpp = false → EntryOpen s c 0x10 h →
    (Fires s c cond 1 → ∃ t, exec (.trap c cond n) s = .next t ∧ Enters s t c 0x10 10 h (BitVec.ofNat 16 n.val) 0 (((s.core c.val).pc.toNat + 1) % 2 ^ 36)) ∧
    (Fires s c cond 2 → ∃ t, exec (.trapl c cond imm) s = .next t ∧ Enters s t c 0x10 10 h imm 0 (((s.core c.val).pc.toNat + 2) % 2 ^ 36))) ∧
  (∀ (s : State) (c : CoreId) (cause h : Nat) (e : IntSource),
    let k := s.core c.val
    wmapWf (fun _ => 0) s.mem = true → coreRuns s c.val = true → k.fpp = false → k.lbe = [] → nextInterrupt s c.val = some cause →
    firstSource s (roleNo s c.val) cause = some e → EntryOpen s c cause h →
    ∃ t, exec (.interruptTaken c) s = .next t ∧
      Enters { s with intq := s.intq.erase e } t c cause 8 h e.info e.addr (if k.waiting then (k.pc.toNat + 1) % 2 ^ 36 else k.pc.toNat)) ∧
  (∀ (s : State) (c : CoreId) (h : Nat) (base : List Word) (x0 x1 : Word),
    let k := s.core c.val
    let p := k.pc.toNat
    let raises (i : Instr) (cause : Nat) (info : Word) : Prop := EntryOpen s c cause h → ∃ t, exec i s = .next t ∧ Enters s t c cause 9 h info 0 p
    wmapWf (fun _ => 0) s.mem = true → CanIssue s c 1 → k.fpp = false →
    (k.depth = 1 → raises (.add c .al false) 0x06 1) ∧ (k.depth = 0 → raises (.drop c .al) 0x06 0) ∧
    (k.depth = 32 → k.stack.length = 32 → raises (.dup c .al) 0x05 32) ∧
    (1 < k.ring → raises (.cli c .al) 0x02 0x1150 ∧ raises (.sti c .al) 0x02 0x1160) ∧ (0 < k.ring → raises (.halt c .al) 0x02 0x1170) ∧
    (Holds k (base ++ [x0, x1, 0]) → raises (.div c .al) 0x09 0 ∧ raises (.divs c .al) 0x09 0 ∧ raises (.rem c .al) 0x09 0) ∧
    (c ≠ 17 → Holds k (base ++ [x0, x1]) → fmtH.isSub x1.toNat = true → raises (.fadd c .al false) 0x0B 0x0F00))

/-- R254, R255: CLI, STI and HALT in the rings that may use them, and a pass of WAIT. That WAIT with IE = 1 goes on while only causes that IMASK masks are pending is the model's reading of R255 (log entry 15). R227, R203, R8: MFC pushes a control register; MTC sets one, the lower word of a wide one held until its highest word is written. -/
def Obligations.SystemInstructionsAndControlRegistersFollowTable814 : Prop :=
  (∀ (s : State) (c : CoreId) (cond : Cond),
    let k := s.core c.val
    Fires s c cond 1 →
    (k.ring ≤ 1 → (∃ t, exec (.cli c cond) s = .next t ∧ After s t c (k.pc + 1) 1 { k with st := k.st &&& 0xFEFF }) ∧
      (∃ t, exec (.sti c cond) s = .next t ∧ After s t c (k.pc + 1) 1 { k with st := k.st ||| 0x0100 })) ∧
    (k.ring = 0 → ∃ t, exec (.halt c cond) s = .next t ∧ After s t c (k.pc + 1) 1 { k with halted := true }) ∧
    (k.ie = false ∧ pendingCauses s c.val ≠ [] → ∃ t, exec (.wait c cond) s = .next t ∧ After s t c (k.pc + 1) 2 k) ∧
    (k.ie = true ∨ pendingCauses s c.val = [] →
      ∃ t, exec (.wait c cond) s = .next (t.updCore c.val fun x => { x with waiting := true }) ∧ After s t c k.pc 2 k)) ∧
  (∀ (s : State) (c : CoreId) (cond : Cond) (base : List Word) (x : Word),
    let k := s.core c.val
    Fires s c cond 2 → k.ring = 0 →
    (Holds k base → Room k (base.length + 1) →
      let reads (n : Word) (v : Word) : Prop := Computes s (exec (.mfc c cond n) s) c 2 2 (base ++ [v]) {}
      reads 0 k.st ∧ reads 1 k.fps ∧ reads 2 k.lc ∧ reads 3 k.rc ∧ reads 4 (BitVec.ofNat 16 k.depth) ∧ reads 0x40 k.evbase ∧ reads 0x42 k.imask ∧ reads 0x4E k.gbase) ∧
    (Holds k (base ++ [x]) →
      let sets (n : Word) (k' : Core) : Prop := Leaves s (exec (.mtc c cond n) s) c 2 2 k' base {}
      sets 0 { k with st := (k.st &&& 0xF6C0) ||| (x &&& 0x093F) } ∧ sets 1 { k with fps := x &&& 0x0FFF } ∧ sets 2 { k with lc := x } ∧ sets 3 { k with rc := x } ∧
      sets 0x40 { k with evbase := x } ∧ sets 0x42 { k with imask := x &&& 0xFFFE } ∧ sets 0x4E { k with gbase := x } ∧
      sets 8 { k with ctlHeld := assocPut k.ctlHeld 8 x } ∧
      sets 9 { k with crcp := x ++ (assocGet k.ctlHeld 8).getD (k.crcp.setWidth 16), ctlHeld := k.ctlHeld.filter fun e => e.1 < 8 || 10 ≤ e.1 }))

/-! Control cores: what skipping changes, and which bits of ST a change of flags reaches (R212 to R214, R233) -/

/-- R213, R214: an instruction whose condition fails changes no stack entry, flag, register or memory word; the PC goes on by its words and the cycle counter by its documented count, as if it were executed. Stated in every ring and on every core, the always-on core included, for the instructions that the ring and the core have (Tables 7.13, 9.1). -/
def Obligations.SkippedInstructionsOnlyAdvance : Prop :=
  ∀ (s : State) (i : Instr) (c : CoreId) (cond : Cond) (words cycles : Nat), i.coreForm = some (c, cond, words, cycles) → i.wellFormed = true →
    CanIssue s c words → condHolds (s.core c.val) cond = false → i.present c (s.core c.val).ring →
    ∃ t, exec i s = .next t ∧ After s t c ((s.core c.val).pc + BitVec.ofNat 36 words) cycles (s.core c.val)

/-- R233, Table 7.4: a change of flags gives each flag it names its new value, and keeps every other bit of ST. -/
def Obligations.FlagChangesReachOnlyTheFlagsTheyName : Prop :=
  ∀ (f : FlagUpd) (st : Word) (i : Nat),
    (f.apply st).getLsbD i = ((match i with | 0 => f.z | 1 => f.n | 2 => f.c | 3 => f.v | 4 => f.d | 5 => f.t | _ => none).getD (st.getLsbD i))

/-! Floating point (R209, R256, R257, R270, R271) -/

/-- Table 8.15: the results of the FPA group by FPS.RND, their sticky flags and the pending trap, where no operand and no result is subnormal. R209, R112: a sum, a product, a fused multiply and add, a quotient and a square root of zeros and normal numbers is the exact value rounded once by FPS.RND, with IX where it is not exact; one that overflows lies beyond the largest finite number. -/
def Obligations.FloatArithmeticFollowsTable815 : Prop :=
  (∀ (s : State) (c : CoreId) (cond : Cond) (w : Bool) (base : List Word) (a b : BitVec (wWidth w)) (x y z : BitVec 32),
    let k := s.core c.val
    let m := fFmt w
    let raised (fl : Nat) : Core := { k with
      fps := k.fps ||| BitVec.ofNat 16 (fl % 32)
      st := if k.fte ∧ (fl % 32 &&& k.fps.toNat / 32 % 32) ≠ 0 then k.st ||| 0x400 else k.st }
    let gives (i : Instr) (cycles : Nat) (v : Bool) (o : FOut) : Prop :=
      o.tiny = false → Leaves s (exec i s) c 1 cycles (raised o.flags) (base ++ valueWords v (BitVec.ofNat _ o.bits)) {}
    Fires s c cond 1 → c ≠ 17 →
    (Holds k (base ++ (valueWords w a ++ valueWords w b)) → m.isSub a.toNat = false → m.isSub b.toNat = false →
      gives (.fadd c cond w) (if w then 4 else 3) w (m.add k.rnd a.toNat b.toNat) ∧
      gives (.fsub c cond w) (if w then 4 else 3) w (m.add k.rnd a.toNat (b ^^^ BitVec.intMin _).toNat) ∧
      gives (.fmul c cond w) (if w then 7 else 4) w (m.fma k.rnd a.toNat b.toNat none) ∧
      gives (.fdiv c cond w) (if w then 27 else 14) w (m.div k.rnd a.toNat b.toNat) ∧
      gives (.fmin c cond w) (if w then 4 else 3) w (m.minMax true a.toNat b.toNat) ∧
      gives (.fmax c cond w) (if w then 4 else 3) w (m.minMax false a.toNat b.toNat)) ∧
    (Holds k (base ++ valueWords w a) → m.isSub a.toNat = false →
      Computes s (exec (.fabs c cond w) s) c 1 1 (base ++ valueWords w (a &&& BitVec.intMax _)) {} ∧
      Computes s (exec (.fneg c cond w) s) c 1 1 (base ++ valueWords w (a ^^^ BitVec.intMin _)) {}) ∧
    (Holds k (base ++ valueWords true x) → fmtS.isSub x.toNat = false → gives (.fsqrt c cond) 27 true (fmtS.sqrt k.rnd x.toNat)) ∧
    (Holds k (base ++ (valueWords true x ++ valueWords true y ++ valueWords true z)) →
      fmtS.isSub x.toNat = false → fmtS.isSub y.toNat = false → fmtS.isSub z.toNat = false →
      gives (.fma c cond) 9 true (fmtS.fma k.rnd x.toNat y.toNat (some z.toNat)))) ∧
  (∀ (f : Fmt) (rnd : Rnd) (a b d : Nat), f = fmtH ∨ f = fmtS → FpNormal f a → FpNormal f b → FpNormal f d →
    let x := fpRat f a
    let y := fpRat f b
    let once (q : ℝ) (o : FOut) : Prop := RoundsOnce f rnd q o ∧ (4 ≤ o.flags % 8 → o.tiny = false → (fpRat f f.maxFin : ℝ) < |q|)
    once (x + y) (f.add rnd a b) ∧ once (x * y) (f.fma rnd a b none) ∧ once (x * y + fpRat f d) (f.fma rnd a b (some d)) ∧
    (y ≠ 0 → once (x / y) (f.div rnd a b)) ∧ (0 ≤ x → once (Real.sqrt x) (f.sqrt rnd a)))

/-- Table 8.16: the flags of FCMP, ordered and unordered, and the conversions. R116, R209: a conversion between formats, and one from an integer, is the exact value rounded once by FPS.RND; one to an integer is the number rounded once to an integer, and saturates with IV outside the integers it can give. -/
def Obligations.FloatComparesAndConversionsFollowTable816 : Prop :=
  (∀ (s : State) (c : CoreId) (cond : Cond) (w : Bool) (base : List Word) (a b : BitVec (wWidth w)) (h : Word) (g : BitVec 32),
    let k := s.core c.val
    let m := fFmt w
    let raised (fl : Nat) : Core := { k with
      fps := k.fps ||| BitVec.ofNat 16 (fl % 32)
      st := if k.fte ∧ (fl % 32 &&& k.fps.toNat / 32 % 32) ≠ 0 then k.st ||| 0x400 else k.st }
    let gives (i : Instr) (v : Bool) (bits fl : Nat) : Prop := Leaves s (exec i s) c 1 3 (raised fl) (base ++ valueWords v (BitVec.ofNat _ bits)) {}
    let whole (v : Bool) (f : Fmt) (bits : Nat) : Int × Nat := let lim : Int := (2 ^ (wWidth v - 1) : Nat); cvtFI f k.rnd (-lim) (lim - 1) bits
    Fires s c cond 1 → c ≠ 17 →
    (Holds k (base ++ (valueWords w a ++ valueWords w b)) → m.isSub a.toNat = false → m.isSub b.toNat = false →
      (m.isNaN a.toNat = false → m.isNaN b.toNat = false →
        Computes s (exec (.fcmp c cond w) s) c 1 (if w then 4 else 3) base
          { z := some (decide (m.key a.toNat = m.key b.toNat)), n := some (decide (m.key a.toNat < m.key b.toNat)), c := some false, v := some false,
            t := some (decide (m.key a.toNat = m.key b.toNat)) }) ∧
      ((m.isNaN a.toNat = true ∨ m.isNaN b.toNat = true) →
        Leaves s (exec (.fcmp c cond w) s) c 1 (if w then 4 else 3) (raised (if m.isSNaN a.toNat ∨ m.isSNaN b.toNat then flIV else 0)) base
          { z := some false, n := some false, c := some true, v := some false, t := some false })) ∧
    (Holds k (base ++ [h]) → Room k (base.length + 2) →
      (fmtH.isSub h.toNat = false → (cvtFF fmtH fmtS k.rnd h.toNat).tiny = false →
        gives (.cvtSH c cond) true (cvtFF fmtH fmtS k.rnd h.toNat).bits (cvtFF fmtH fmtS k.rnd h.toNat).flags) ∧
      gives (.cvtSW c cond) true (cvtIF fmtS k.rnd h.toInt).bits (cvtIF fmtS k.rnd h.toInt).flags ∧
      gives (.cvtHW c cond) false (cvtIF fmtH k.rnd h.toInt).bits (cvtIF fmtH k.rnd h.toInt).flags ∧
      (fmtH.isSub h.toNat = false → gives (.cvtWH c cond) false (ofSigned 16 (whole false fmtH h.toNat).1) (whole false fmtH h.toNat).2)) ∧
    (Holds k (base ++ valueWords true g) →
      (fmtS.isSub g.toNat = false → (cvtFF fmtS fmtH k.rnd g.toNat).tiny = false →
        gives (.cvtHS c cond) false (cvtFF fmtS fmtH k.rnd g.toNat).bits (cvtFF fmtS fmtH k.rnd g.toNat).flags) ∧
      gives (.cvtSI c cond) true (cvtIF fmtS k.rnd g.toInt).bits (cvtIF fmtS k.rnd g.toInt).flags ∧
      (fmtS.isSub g.toNat = false → gives (.cvtWS c cond) false (ofSigned 16 (whole false fmtS g.toNat).1) (whole false fmtS g.toNat).2) ∧
      (fmtS.isSub g.toNat = false → gives (.cvtIS c cond) true (ofSigned 32 (whole true fmtS g.toNat).1) (whole true fmtS g.toNat).2))) ∧
  (∀ (rnd : Rnd) (a b : Nat) (i lo hi : Int) (f : Fmt), f = fmtH ∨ f = fmtS → FpNormal fmtH a → FpNormal f b → lo ≤ hi →
    RoundsOnce fmtS rnd (fpRat fmtH a) (cvtFF fmtH fmtS rnd a) ∧ RoundsOnce fmtH rnd (fpRat f b) (cvtFF f fmtH rnd b) ∧ RoundsOnce f rnd (i : ℝ) (cvtIF f rnd i) ∧
    let q := fpRat f b
    let v := cvtFI f rnd lo hi b
    (lo ≤ q → q ≤ hi → RoundedOnce rnd (fun y => ∃ n : Int, y = n) (v.1 % 2 = 0) q v.1 ∧ (v.2 = 0 ∨ v.2 = flIX) ∧ (v.2 = 0 ↔ (v.1 : ℚ) = q)) ∧
    (hi + 1 ≤ q → v = (hi, flIV)) ∧ (q ≤ lo - 1 → v = (lo, flIV)))

/-- R257: FPI takes its second operand from imm16, and its count is one more; FBAR does nothing without a pending trap. Table 8.17: the edge results of the control core's floating point, row by row; a result that traps is marked by the last component. -/
def Obligations.FloatImmediatesAndEdgeResultsFollowTable817 : Prop :=
  (∀ (s : State) (c : CoreId) (cond : Cond) (w : Bool) (base : List Word) (a : BitVec (wWidth w)) (imm : Word),
    let k := s.core c.val
    let m := fFmt w
    let b := if w then imm.toNat * 65536 else imm.toNat
    let raised (fl : Nat) : Core := { k with
      fps := k.fps ||| BitVec.ofNat 16 (fl % 32)
      st := if k.fte ∧ (fl % 32 &&& k.fps.toNat / 32 % 32) ≠ 0 then k.st ||| 0x400 else k.st }
    let gives (i : Instr) (cycles : Nat) (o : FOut) : Prop :=
      o.tiny = false → Leaves s (exec i s) c 2 cycles (raised o.flags) (base ++ valueWords w (BitVec.ofNat _ o.bits)) {}
    (Fires s c cond 2 → c ≠ 17 → Holds k (base ++ valueWords w a) → m.isSub a.toNat = false → m.isSub b = false →
      gives (.fpiAdd c cond w imm) (if w then 5 else 4) (m.add k.rnd a.toNat b) ∧
      gives (.fpiSub c cond w imm) (if w then 5 else 4) (m.add k.rnd a.toNat (b ^^^ (BitVec.intMin (wWidth w)).toNat)) ∧
      gives (.fpiMul c cond w imm) (if w then 8 else 5) (m.fma k.rnd a.toNat b none) ∧
      gives (.fpiMin c cond w imm) (if w then 5 else 4) (m.minMax true a.toNat b) ∧
      gives (.fpiMax c cond w imm) (if w then 5 else 4) (m.minMax false a.toNat b) ∧
      (m.isNaN a.toNat = false → m.isNaN b = false →
        Computes s (exec (.fpiCmp c cond w imm) s) c 2 (if w then 5 else 4) base
          { z := some (decide (m.key a.toNat = m.key b)), n := some (decide (m.key a.toNat < m.key b)), c := some false, v := some false,
            t := some (decide (m.key a.toNat = m.key b)) }) ∧
      ((m.isNaN a.toNat = true ∨ m.isNaN b = true) →
        Leaves s (exec (.fpiCmp c cond w imm) s) c 2 (if w then 5 else 4) (raised (if m.isSNaN a.toNat ∨ m.isSNaN b then flIV else 0)) base
          { z := some false, n := some false, c := some true, v := some false, t := some false })) ∧
    (Fires s c cond 1 → c ≠ 17 → k.fpp = false → ∃ t, exec (.fbar c cond) s = .next t ∧ After s t c (k.pc + 1) 4 k)) ∧
  (fmtS.isSub 0x00000001 = true ∧ (fmtS.fma .rne 0x00800000 0x3F000000 none).tiny = true ∧ (fmtS.fma .rne 0x3F7FFFFF 0x00800000 none).tiny = true ∧
  (cvtFF fmtS fmtH .rne 0x33800000).tiny = true ∧ fmtS.add .rdn 0x00800000 0x80800000 = ⟨0x80000000, 0, false⟩ ∧
  fmtS.fma .rtz 0x7F7FFFFF 0x40000000 none = ⟨0x7F7FFFFF, flOF + flIX, false⟩ ∧ fmtH.add .rne 0x7BFF 0x7BFF = ⟨0x7C00, flOF + flIX, false⟩ ∧
  fmtS.div .rne 0x3F800000 0 = ⟨0x7F800000, flDZ, false⟩ ∧ fmtS.sqrt .rne 0x80000000 = ⟨0x80000000, 0, false⟩ ∧
  fmtS.sqrt .rne 0xBF800000 = ⟨0x7FC00000, flIV, false⟩ ∧ fmtS.add .rne 0x7F800001 0x3F800000 = ⟨0x7FC00001, flIV, false⟩ ∧
  fmtS.isNaN 0x7FC00000 = true ∧ cvtFI fmtS .rne (-32768) 32767 0x471C4000 = (0x7FFF, flIV))

/-! Register ring and vector queues (R221, R258 to R260, R362) -/

/-- R260, R221: LDR and LDRX push a register's word, read in the core's ring with no access of the core before it still to be performed; STR and STRX are posted. KEYFIFO_READ pushes the oldest key change and removes it (R362). R258, R259, Table 3.2: VISSUE and VISSUEX push the outcome of the push that they make, with Z for ACCEPTED, and an accepted command joins the queue's tail with the core's role, and S = 1 then steps An by 16 in its mode (R205 to R207); VPOLL pushes the queue's status word; VFENCE marks the next far load. Stated in RUN. -/
def Obligations.RingAndVectorQueueInstructionsFollowTable818 : Prop :=
  (∀ (s : State) (c : CoreId) (cond : Cond) (base : List Word) (x off : Word) (b : BitVec 4) (w : Word) (r : List Word),
    let k := s.core c.val
    let key := b.toNat * 65536 + off.toNat
    let got := coreRegRead (s.updCore c.val Core.issuing) c.val k.ring key
    let pushes (i : Instr) (len : Nat) (u : State) (v : Word) : Prop :=
      ∃ t st, st.length = k.stack.length ∧ st.take (base.length + 1) = base ++ [v] ∧ exec i s = .next t ∧
        After u t c (k.pc + BitVec.ofNat 36 len) 24 { u.core c.val with stack := st, depth := base.length + 1 }
    let posts (i : Instr) (len : Nat) : Prop :=
      Leaves s (exec i s) c len 2 { k with posted := k.posted ++ [⟨true, BitVec.ofNat 36 (0xF00000000 + key), x, none, BitVec.ofNat 2 k.ring⟩] } base {}
    b.toNat < 13 → blockPowered s b.toNat = true →
    (Fires s c cond 1 → k.posted = [] → Holds k (base ++ [off]) → pushes (.ldr c cond b) 1 got.2 got.1) ∧
    (Fires s c cond 2 → k.posted = [] → Holds k base → Room k (base.length + 1) → pushes (.ldrx c cond b off) 2 got.2 got.1) ∧
    (Fires s c cond 1 → Holds k (base ++ [x, off]) → posts (.str c cond b) 1) ∧
    (Fires s c cond 2 → Holds k (base ++ [x]) → posts (.strx c cond b off) 2) ∧
    (CanIssue s c 2 → k.posted = [] → Holds k base → Room k (base.length + 1) → k.ring ≤ 2 → s.aon.fifo = w :: r →
      pushes (.keyfifoRead c) 2 { s with aon := { s.aon with fifo := r } } w)) ∧
  (∀ (s : State) (c : CoreId) (cond : Cond) (base : List Word) (x0 x1 x2 : Word) (q : QueueId) (n : Fin 8) (step : Bool) (stepTo : Nat),
    let k := s.core c.val
    let ad : Addr := x2.setWidth 4 ++ x1 ++ x0
    let pushed (a : Addr) : State :=
      { s with
        ve := if pushOutcome s q.val k.ring a.toNat = .accepted then
            { s.ve with queues := s.ve.queues.modify q.val fun v => { v with waiting := v.waiting ++ [⟨a, roleNo s c.val, none⟩], pushed := v.pushed + 1 } }
          else s.ve
        power := { s.power with idleWatch := false, clkWf := true, clkXspi := true, cur := s.power.cur.filter fun o => o.src != .auto } }
    let answers (i : Instr) (len cycles : Nat) (a : Addr) (k' : Core) : Prop :=
      Leaves (pushed a) (exec i s) c len cycles k' (base ++ [BitVec.ofNat 16 (pushOutcome s q.val k.ring a.toNat).code])
        { z := some (decide (pushOutcome s q.val k.ring a.toNat = .accepted)) }
    c ≠ 17 → s.power.st = .run →
    (Fires s c cond 1 → k.posted = [] → Holds k (base ++ [x0, x1, x2]) → answers (.vissue c cond q) 1 4 ad k) ∧
    (Fires s c cond 2 → k.posted = [] → Holds k base → Room k (base.length + 1) → n.val < k.a.length → k.stepped n.val 16 = some stepTo →
      answers (.vissuex c cond q n step) 2 5 (BitVec.ofNat 36 (k.addr n.val))
        (if step ∧ pushOutcome s q.val k.ring (k.addr n.val) = .accepted then { k with a := k.a.set n.val (BitVec.ofNat 36 stepTo) } else k)) ∧
    (Fires s c cond 1 → Holds k base → Room k (base.length + 1) →
      Computes s (exec (.vpoll c cond q) s) c 1 3
        (base ++ [BitVec.ofNat 16 (32768 * b2n (!(s.queue q.val).prog.isEmpty) + 16384 * b2n (s.queue q.val).stopped + 8192 * b2n (s.queue q.val).paused +
          4096 * b2n (s.queue q.val).flushing + (s.queue q.val).depth)]) {}) ∧
    (Fires s c cond 1 → Holds k base →
      Leaves s (exec (.vfence c cond q) s) c 1 2 { k with fence := k.fence ++ ((fenceNeed s q.val (roleNo s c.val)).map (q.val, ·)).toList } base {}))

/-! What happens to a core between instructions (R198, R217, R222, R228, R272) -/

/-- R198, R199, R228, R282: a released core starts at the first word of its role's local memory with every register at its reset value and the master page; a timer whose compare value is reached becomes pending. R280, R282: a decode entry that keeps Table 9.15 is taken, one that breaks it is left with VALID = 0 and its reason in MCSTAT, and a step is written at MCADDR, which goes on. That a discarded step write leaves MCADDR, and that a rejected entry keeps its words with VALID clear, is the model's reading (log entry 18). R261, R281: a customer instruction takes the CYCLES of its entry and does what its steps do one after the other, each on what those before it leave: stated of one SWAP; of PSH, whose operand byte SUBST replaces by one of Uk's, ADD, and INC by a condition that the flags of the ADD decide; and of LD, ADD and ST on own memory, with P = 0 or P = 1. A word that is a decode fault in the state enters the handler of its cause with the word in INFO. -/
def Obligations.CoresTimersAndMicrocodeFollowTheirRules : Prop :=
  (∀ (s : State) (c : CoreId) (role : Fin 16) (n : Fin 2),
    let k := s.core c.val
    let base : Addr := 0x900000000 + BitVec.ofNat 36 (role.val * 65536)
    (c ≠ 17 → c.val < s.cores.length → k.retired = false → k.running = false →
      (∀ d, d < 17 → d ≠ c.val → (s.core d).role = some role → (s.core d).retired = true) →
      ∃ t win page, exec (.coreRelease c role) s = .next t ∧ (∀ d, d ≠ c.val → t.core d = s.core d) ∧ t = { s with cores := t.cores } ∧
        t.core c.val = { Core.reset (some role) with
          pc := base, ssp := [base + 0xFFF0, 0, 0], de := (masterPage s).1, msteps := (masterPage s).2, ctlCap := (masterPage s).1.zipIdx.map fun e => (0xC1 + 2 * e.2, e.1.2), running := true, winBase := base, win := win, winDe := page }) ∧
    (c ≠ 17 → (k.tctl.getD n.val 0).getLsbD 0 = true → (k.tcmp.getD n.val 0).toNat ≤ s.time.toNat →
      exec (.timerCompareMatch c n) s = .next (s.updCore c.val fun k => { k with tctl := k.tctl.modify n.val (· ||| 2) }))) ∧
  (∀ (s : State) (c : CoreId) (e : Fin 16) (w1 v : Word),
    let k := s.core c.val
    let w0 := (assocGet k.ctlHeld (0xC0 + 2 * e.val)).getD (k.de.getD e.val (0, 0)).1
    let code := microCheck k.msteps e.val w0.toNat w1.toNat
    mayWritePage s c.val = true →
    (w0.getLsbD 15 = true → code = 0 → ∃ t, exec (.decodeEntryWrite c e w1) s = .next t ∧ (t.core c.val).de = k.de.set e.val (w0, w1) ∧
      (t.core c.val).mccode = 0 ∧ t.ras = s.ras) ∧
    (w0.getLsbD 15 = true → code ≠ 0 → ∃ t, exec (.decodeEntryWrite c e w1) s = .next t ∧ (t.core c.val).de = k.de.set e.val (w0 &&& 0x7FFF, w1) ∧
      (t.core c.val).mccode = BitVec.ofNat 8 code) ∧
    (w0.getLsbD 15 = false → ∃ t, exec (.decodeEntryWrite c e w1) s = .next t ∧ (t.core c.val).de = k.de.set e.val (w0, w1) ∧ (t.core c.val).mccode = k.mccode) ∧
    (inValidProgram k k.mcaddr.toNat = false → ∃ t, exec (.microcodeStepWrite c v) s = .next t ∧ (t.core c.val).mcaddr = k.mcaddr + 1 ∧
      (t.core c.val).mchi = v ∧ (t.core c.val).msteps = wmapSet (wmapSet k.msteps (2 * k.mcaddr.toNat) k.mclo 0) (2 * k.mcaddr.toNat + 1) v 0 ∧
      (t.core c.val).de = k.de) ∧
    (inValidProgram k k.mcaddr.toNat = true → ∃ t, exec (.microcodeStepWrite c v) s = .next t ∧ (t.core c.val).mcaddr = k.mcaddr ∧
      (t.core c.val).msteps = k.msteps ∧ (t.core c.val).mccode = 8)) ∧
  (∀ (s : State) (c : CoreId) (cond : Cond) (base : List Word) (x y imm w0 w1 : Word) (u : Fin 16) (cause h : Nat),
    let k := s.core c.val
    let page := winPage k 0
    let e := page.1.getD u.val (0, 0)
    let start := deStart e.2.toNat
    (Fires s c cond (if u.val < 8 then 1 else 2) → c ≠ 17 → k.stack.length = 32 → Holds k (base ++ [x, y]) → deValid e.1.toNat = true → k.ring ≤ deRingmax e.1.toNat →
      dePop e.1.toNat = 2 → dePush e.1.toNat = 2 → stepInstr page.2 start = 0x0003 → stepLast page.2 start = true → stepSubst page.2 start = 0 →
      Computes s (exec (.customerInstruction c cond u imm) s) c (if u.val < 8 then 1 else 2) (deCycles e.2.toNat) (base ++ [y, x]) {}) ∧
    (∀ (v : Byte) (z : Fin 4),
      let sub := stepSubst page.2 start
      let add : FlagUpd := { resultFlags (x + v.signExtend 16) with
        c := some (decide (65536 ≤ x.toNat + (v.signExtend 16).toNat)), v := some (decide ((x + v.signExtend 16).toInt ≠ x.toInt + v.toInt)) }
      let r := x + v.signExtend 16
      let k' : Core := { k with st := add.apply k.st }
      let inc : FlagUpd := { resultFlags (r + 1) with c := some (r == BitVec.allOnes 16), v := some (r == BitVec.intMax 16) }
      let more := condHolds k' (condOfC2 z.val)
      Fires s c cond (if u.val < 8 then 1 else 2) → c ≠ 17 → k.stack.length = 32 → Holds k (base ++ [x]) → deValid e.1.toNat = true → k.ring ≤ deRingmax e.1.toNat →
      dePop e.1.toNat = 1 → dePush e.1.toNat = 1 →
      (sub = (if u.val < 8 then 1 else 2) ∧ v = imm.setWidth 8 ∨ 8 ≤ u.val ∧ sub = 3 ∧ v = imm.extractLsb' 8 8) →
      stepInstr page.2 start / 256 = 0x06 → stepLast page.2 start = false →
      stepInstr page.2 (start + 1) = 0x0100 → stepLast page.2 (start + 1) = false → stepSubst page.2 (start + 1) = 0 →
      stepInstr page.2 (start + 2) = 0x2000 * z.val + 0x0106 → stepLast page.2 (start + 2) = true → stepSubst page.2 (start + 2) = 0 →
      Leaves s (exec (.customerInstruction c cond u imm) s) c (if u.val < 8 then 1 else 2) (deCycles e.2.toNat) k'
        (base ++ [if more then r + 1 else r]) (if more then inc else {})) ∧
    (∀ (n m : Fin 8) (p q : Bool) (o1 o2 : BitVec 4) (to1 to2 : Nat),
      let src := memOperand k n.val p o1.toInt
      let dst := memOperand k m.val q o2.toInt
      let v := ownRead s c.val src.1
      let add : FlagUpd := { resultFlags (x + v) with c := some (decide (65536 ≤ x.toNat + v.toNat)), v := some (decide ((x + v).toInt ≠ x.toInt + v.toInt)) }
      Fires s c cond (if u.val < 8 then 1 else 2) → c ≠ 17 → k.stack.length = 32 → Holds k (base ++ [x]) → deValid e.1.toNat = true → k.ring ≤ deRingmax e.1.toNat →
      dePop e.1.toNat = 1 → dePush e.1.toNat = 0 → (∀ j < 3, stepSubst page.2 (start + j) = 0 ∧ stepLast page.2 (start + j) = decide (j = 2)) →
      stepInstr page.2 start = 0x0800 + 32 * n.val + 16 * b2n p + o1.toNat → stepInstr page.2 (start + 1) = 0x0100 →
      stepInstr page.2 (start + 2) = 0x0900 + 32 * m.val + 16 * b2n q + o2.toNat →
      n ≠ m → wmapWf (fun _ => 0) s.mem = true → OwnAccess s c 0 1 src to1 → OwnAccess s c 1 1 dst to2 → Clean s c [src.1] →
      LeavesStored s (exec (.customerInstruction c cond u imm) s) c (if u.val < 8 then 1 else 2) (deCycles e.2.toNat)
        { k with a := (k.a.set n.val (BitVec.ofNat 36 to1)).set m.val (BitVec.ofNat 36 to2), st := add.apply k.st } base (ownCells c dst.1 [x + v])) ∧
    (wmapWf (fun _ => 0) s.mem = true → CanIssue s c 2 → k.fpp = false → illegalCause s c.val w0.toNat w1.toNat = some cause → EntryOpen s c cause h →
      ∃ t, exec (.illegalInstruction c w0 w1) s = .next t ∧ Enters s t c cause 9 h w0 0 k.pc.toNat))

/-! The vector engine (R65 to R94, R149, R433 to R435) -/

/-- R65, R69: a queue's next command, of unpoisoned words, is fetched: one that fails a check of Table 3.4 (a CRC that differs among them) ends with that check's status and FAULT, and one that passes them is in progress at segment 0. R87, R88: a serving pipe runs its next segment into a buffer, with memory unchanged; a wave commits: the words that its segments do not store keep their value, and after the last wave the command has ended with every element done. R66, R70: an ended command leaves its queue, with its record of Table 3.5 written where CREC asks for one that its queue may write; without a record it is shown counted in VE_CMD_COUNT, with its interrupt where IRQ asks for one. Stated while the engine has its clock and no state-store write holds the queue back (the model's choice: log entry 54). -/
def Obligations.VectorCommandsRunFromFetchToCompletion : Prop :=
  ∀ (s : State) (q : QueueId) (p : PipeId) (e : VEntry) (rest : List VEntry) (c : VCmd) (more : List VCmd) (st : Word) (bad : VStatus) (f : Nat),
    let v := s.queue q.val
    let words := (List.range 16).map fun i => memRead s (e.addr.toNat + i)
    q.val < s.ve.queues.length →
    let awake : Prop := dozing s = false ∧ storeWaits s q.val = false
    let next : Prop := awake ∧ v.waiting = e :: rest ∧ v.prog = [] ∧ v.stopped = false ∧ v.flushing = false ∧ ∀ a ∈ cmdWords e.addr, poisoned s a.toNat = false
    (next → accessOk s q.val (cmdWords e.addr) false = true → crc16Words (words.take 15) ≠ wordAt words 15 → fetchCheck s q.val e.addr words = some (.badCrc, 0)) ∧
    (next → fetchCheck s q.val e.addr words = some (bad, f) →
      ∃ t x, exec (.commandFetch q) s = .next t ∧ (t.queue q.val).waiting = rest ∧ (t.queue q.val).prog = [x] ∧ x.words = words ∧
        x.final = some (BitVec.ofNat 16 bad.code) ∧ x.faultVal = BitVec.ofNat 32 f ∧ t.mem = s.mem ∧ t.regs = s.regs) ∧
    (next → fetchCheck s q.val e.addr words = none → slotsBusy s (cmdSlotsW words) = false →
      ∃ t x, exec (.commandFetch q) s = .next t ∧ (t.queue q.val).waiting = rest ∧ (t.queue q.val).prog = [x] ∧ x.words = words ∧ x.entry = e ∧
        x.final = none ∧ x.nextSeg = 0 ∧ t.mem = s.mem ∧ t.regs = s.regs) ∧
    (awake → (servingPipes s).contains p.val = true → s.power.throttle = false → s.ve.engFault = false → replayFor s p.val = none → pickQueue s = some q.val → startable v = some c → c.usesD = false →
      ∃ t x b, exec (.segmentRun p) s = .next t ∧ (t.queue q.val).prog.head? = some x ∧ x.nextSeg = c.nextSeg + 1 ∧ x.bufs = c.bufs ++ [b] ∧ b.seg = c.nextSeg ∧
        b.pipe = p.val ∧ (∀ d, d ≠ q.val → t.queue d = s.queue d) ∧ t.mem = s.mem ∧ t.regs = s.regs ∧ t.cores = s.cores) ∧
    (awake → v.prog = c :: more → c.final = none → c.fault = none → c.replay = [] → v.flushing = false → c.waveEnd ≤ c.nextSeg →
      wmapWf (fun _ => 0) s.mem = true →
      ∃ t x, exec (.waveCommit q) s = .next t ∧ (t.queue q.val).prog = x :: more ∧ x.doneEl = min (256 * c.waveEnd) (cmdN c.words) ∧
        (c.waveEnd = c.segs → x.final.isSome = true ∧ x.wave = c.wave) ∧ (c.waveEnd ≠ c.segs → x.final = none ∧ x.wave = c.wave + 1) ∧
        (∀ a, (∀ b ∈ c.bufs, ∀ w ∈ b.stores, storeKey s w.addr ≠ some a) → memGet t a = memGet s a) ∧ t.regs = s.regs ∧ t.cores = s.cores) ∧
    (awake → v.prog = c :: more → c.final = some st → c.entry.host = none → cmdCrec c.words = 0xFFFF → untrusted c st = false → wmapWf regReset s.regs.val = true →
      ∃ t, exec (.commandComplete q) s = .next t ∧ (t.queue q.val).prog = more ∧ (t.queue q.val).completed = v.completed + 1 ∧
        t.reg Reg.VE_CMD_COUNT 2 = (s.reg Reg.VE_CMD_COUNT 2 + 1) % 4294967296 ∧ t.mem = s.mem ∧
        (cmdIrq c.words = true → st ≠ 0x0002 → t.intq = s.intq ++ [⟨liveRole s c.entry.role, 0x11, BitVec.ofNat 16 q.val, 0⟩])) ∧
    (let a := s.reg (Reg.VE_QCBASE + 4 * q.val) 3 % 2 ^ 36 + 8 * cmdCrec c.words
     awake → v.prog = c :: more → c.final = some st → c.entry.host = none → cmdCrec c.words ≠ 0xFFFF → untrusted c st = false →
      accessOk s q.val ((List.range 8).map fun i => ((a + i : Nat) : Int)) true = true → (∀ i < 8, storeKey s (a + i) = some (a + i)) → wmapWf (fun _ => 0) s.mem = true →
      ∃ t, exec (.commandComplete q) s = .next t ∧ (t.queue q.val).prog = more ∧ (∀ i < 8, memGet t (a + i) = (recordWords s c st).getD i 0) ∧
        ∀ x, (x < a ∨ a + 8 ≤ x) → memGet t x = memGet s x)

/-- R92 to R94: FLUSH ends the commands that have not started with ABORTED, RESTART clears STOPPED, PAUSE is set and cleared; no other queue changes. R433 to R435: a segment whose pipe errs, of a queue's command or of a drive command, is discarded and replayed elsewhere, and the pipe goes to its test; a pipe that passes its test serves again, one that fails retires. R149, R150: a builder whose slots no command names writes its table, or both tables of a pair, and is then free; WF_BUILDS counts the tables, and no word of the resident sets that the builder reads for its regions stays unreadable (R440; that a set's place in the area is a constant of the implementation is the model's choice: log entry 58); R180: the drive commands of the region-frames that it serves are issued, but none once a VIN-fail has stopped the dispatcher (R193). That they join a list of the dispatcher's own, as the table is built, and that a segment runs again through that list, is the model's choice (log entry 35). -/
def Obligations.QueuesPipesAndBuildersFollowChapter3 : Prop :=
  (∀ (s : State) (q : QueueId) (on : Bool), q.val < s.ve.queues.length →
    let v := s.queue q.val
    let others (t : State) : Prop := (∀ x, x ≠ q.val → t.queue x = s.queue x) ∧ t.mem = s.mem ∧ t.cores = s.cores ∧ t.disp = s.disp
    (∃ t, exec (.queueFlush q) s = .next t ∧ others t ∧ (t.queue q.val).waiting = [] ∧ (t.queue q.val).stopped = false ∧
      (t.queue q.val).prog.length = v.prog.length + v.waiting.length ∧ (t.queue q.val).flushing = decide (v.prog.length + v.waiting.length ≠ 0) ∧
      ∀ x ∈ (t.queue q.val).prog, x ∉ v.prog → x.final = some 0x0030) ∧
    (∃ t, exec (.queueRestart q) s = .next t ∧ others t ∧ t.queue q.val = { v with stopped := false }) ∧
    (∃ t, exec (.queuePause q on) s = .next t ∧ others t ∧ t.queue q.val = { v with paused := on })) ∧
  (∀ (s : State) (p : PipeId) (q seg i : Nat) (c : VCmd) (more : List VCmd) (d : DriveCmd) (b : Fin 2) (x : Build),
    (driveSeg s p.val = none → s.ve.last.find? (·.1 == p.val) = some (p.val, q, seg) → (s.queue q).prog = c :: more → c.bufs.any (fun y => y.seg == seg && y.pipe == p.val) = true →
      c.erred.find? (·.1 == seg) = none → pipeE24 s p.val = 0 →
      ∃ t d, exec (.pipeError p) s = .next t ∧ (t.queue q).prog = d :: more ∧ d.replay = c.replay ++ [(seg, [p.val])] ∧
        d.bufs = c.bufs.filter (·.seg != seg) ∧ p.val ∈ t.ve.testing ∧ t.ve.active = s.ve.active ∧ t.mem = s.mem ∧ t.cores = s.cores) ∧
    (driveSeg s p.val = some (i, seg) → s.disp.drives[i]? = some d → d.erred.find? (·.1 == seg) = none → pipeE24 s p.val = 0 →
      ∃ t, exec (.pipeError p) s = .next t ∧ p.val ∈ t.ve.testing ∧ t.ve.queues = s.ve.queues ∧ t.mem = s.mem ∧ t.cores = s.cores ∧
        t.disp.drives[i]? = some { d with bufs := d.bufs.filter (·.1 != seg), replay := d.replay ++ [(seg, [p.val])], erred := d.erred.filter (·.1 != seg) ++ [(seg, [p.val])] }) ∧
    (exec (.pipeBuiltinTestDone p true) s = .next { s with ve := { s.ve with testing := s.ve.testing.filter (· != p.val) } }) ∧
    (p.val ∉ s.ve.retired → ∃ t, exec (.pipeBuiltinTestDone p false) s = .next t ∧ p.val ∈ t.ve.retired ∧ p.val ∉ t.ve.testing ∧ p.val ∉ t.ve.active ∧
      t.mem = s.mem ∧ t.cores = s.cores) ∧
    (s.ve.builds.getD b.val none = some x → (∀ i ∈ x.slots, i ∉ namedSlots s) → s.ve.buildQ = [] → dozing s = false → wmapWf regReset s.regs.val = true →
      ∃ t, exec (.frameTableBuilt b) s = .next t ∧ t.ve.builds = s.ve.builds.set b.val none ∧
        t.ve.slots = (if x.pair then (s.ve.slots.set (x.slot / 2 * 2) (some ⟨x.t0⟩)).set (x.slot / 2 * 2 + 1) (some ⟨x.t1⟩) else s.ve.slots.set x.slot (some ⟨x.t0⟩)) ∧
        t.reg Reg.WF_BUILDS 2 = (s.reg Reg.WF_BUILDS 2 + (if x.pair then 2 else 1)) % 4294967296 ∧ t.mem = s.mem ∧ t.cores = s.cores ∧
        t.disp = { s.disp with drives := s.disp.drives ++ (if s.disp.stopped then [] else tableDrives s x) } ∧
        ∀ pl, s.place 0x10 0 = some pl → ∀ u ∈ t.poison, ¬ (pl.base ≤ u ∧ u < pl.base + pl.size ∧ readsUnit s pl.base x.rids u = true)))

/-! The dispatcher (Chapter 6) and the waveform memory's temperature (R139) -/

/-- R165 to R168, R187, R188: an UPDATE that Table 6.2 accepts is taken as a request, and where nothing holds it back a rectangle on one slate that overlaps no open region forms one ADMITTED region, of its class and mode, at the end of the list; a request that a BLANK holds back waits, and is admitted once it no longer is. R188, R189, R380, Table 6.6: CANCEL, HOLD and RESUME of a request that does not exist complete at once with OK; HOLD parks an ADMITTED region of its request, and RESUME releases a region parked by HOLD; CANCEL of a WAITING request removes it. -/
def Obligations.RequestsFormAndFollowTable66 : Prop :=
  (∀ (s : State) (r : RingId) (cid : Word) (tk : Taken) (q : Request) (p : PortId) (rect : Rect),
    let full : Rect := ⟨tk.field 8 2, tk.field 10 2, tk.field 12 2, tk.field 14 2⟩
    let mode := tk.field 16 1
    let formed (t : State) (req mode cls : Nat) : Prop := ∃ x, t.disp.regions = s.disp.regions ++ [x] ∧ x.st = .admitted ∧ x.port = p ∧ x.rect = rect ∧ x.mode = mode ∧
      x.cls = cls ∧ x.req = req ∧ x.frame = 0 ∧ x.tgtDur = false ∧ x.parkN = none ∧ x.waitsFor = []
    let free : Prop := s.side.blank = false ∧ s.side.msgs = [] ∧ serviceLost s = false ∧ s.memc.ssLost = false ∧ s.overlaps p.val rect = []
    (s.startable r cid 0x30 = some tk → (∀ x ∈ s.disp.requests, ¬ (x.ring = r ∧ x.waiting = true)) → mode < 14 → admitCheck s full (some mode) = none → s.disp.sleeping = false →
      (s.side.blank = true →
        ∃ t y, exec (.update r cid) s = .next t ∧ t.disp.requests = s.disp.requests ++ [y] ∧ y.waiting = true ∧ y.ring = r ∧ y.cid = cid ∧ y.rect = full ∧
          y.mode = mode ∧ y.cls = tk.cls ∧ t.disp.regions = s.disp.regions ∧ t.mem = s.mem) ∧
      (free → s.parts full = [(some p, rect)] → s.countOn p.val < 16 → s.countAll < 512 → (∀ x ∈ s.disp.requests, x.id ≤ s.disp.nextId) →
        ∃ t, exec (.update r cid) s = .next t ∧ formed t (s.disp.nextId + 1) mode tk.cls)) ∧
    (s.disp.requests.find? (fun x => x.ring == r && x.waiting) = some q → q.holdMark = false → free → s.parts q.rect = [(some p, rect)] → s.countOn p.val < 16 → s.countAll < 512 →
      ∃ t, exec (.admitWaitingRequest r) s = .next t ∧ formed t q.id q.mode q.cls)) ∧
  (∀ (s : State) (r : RingId) (cid : Word) (tk : Taken) (q : Request) (x : Region),
    let h : HostRef := (r, tk.seq)
    let alone : Prop := s.regionsOf q.id = [x] ∧ s.disp.regions.Pairwise (fun a b => a.id ≠ b.id) ∧ x ∈ s.disp.regions ∧ q.waiting = false
    (namedRequest s tk = none →
      (s.startable r cid 0x31 = some tk → exec (.cancel r cid) s = .next (postCompletion s h .ok)) ∧
      (s.startable r cid 0x32 = some tk → exec (.hold r cid) s = .next (postCompletion s h .ok)) ∧
      (s.startable r cid 0x33 = some tk → exec (.resume r cid) s = .next (postCompletion s h .ok))) ∧
    (namedRequest s tk = some q → q.waiting = true → s.disp.requests.Pairwise (fun a b => a.id ≠ b.id) → s.startable r cid 0x31 = some tk →
      s.disp.regions.all (fun y => !(y.req == q.id && y.live)) = true →
      ∃ t, exec (.cancel r cid) s = .next t ∧ t.disp.requests = s.disp.requests.filter (·.id != q.id) ∧ t.disp.regions = s.disp.regions) ∧
    (namedRequest s tk = some q → alone → x.st = .admitted → s.startable r cid 0x32 = some tk →
      ∃ t, exec (.hold r cid) s = .next t ∧ t.disp.regions = s.disp.regions.map fun y => if y.id = x.id then { y with st := .parked, reason := .hold } else y) ∧
    (namedRequest s tk = some q → alone → x.st = .parked → x.reason = .hold → s.startable r cid 0x33 = some tk →
      ∃ t, exec (.resume r cid) s = .next t ∧ t.disp.regions = s.disp.regions.map fun y => if y.id = x.id then { y with reason := .milestone } else y))

/-- R29, R58, R161, R192, R177: once its writes, which nothing on their channels stands before, are durable, a region has its targets, stands at boundary 0 of its next run, or, DONE, leaves the journal image; a span that has waited too long is marked. R30, R168: a write-back whose segments have run commits and makes its region DONE. R179, R182, R175: the planning point of a course plans its next frame; the frame starts with that plan, and its count goes on; its end closes the frame with no region-frame left in progress. User trims that wait move the rails' targets at the start (R319). -/
def Obligations.RegionsAndCourseFramesMoveOn : Prop :=
  (∀ (s : State) (x : Region), s.region x.id = some x → s.memc.ssLost = false → s.disp.stopped = false → dozing s = false →
    (x.tgtDur = false → ssDue s 2 x.id = true → ∃ t, exec (.targetDurable x.id) s = .next t ∧ t.disp = (s.updRegion x.id fun r => { r with tgtDur := true }).disp) ∧
    (x.splDur = false → ssDue s 2 x.id = true → x.parkN = none → x.cancelMk = false → s.request x.req = none →
      ∃ t, exec (.spliceWritesDurable x.id) s = .next t ∧
        t.disp = ((uncoverImage (s.updRegion x.id fun r => { r with splDur := true }) x).updRegion x.id fun r =>
          { r with kind := r.nkind, rkind := .run, frame := 0, line := none, rframe := 0, rline := none, wear := false, spanEnd := 0 }).disp) ∧
    (x.st = .done → ssDue s 3 x.id = true → ∃ t, exec (.closeWriteDurable x.id) s = .next t ∧ t.disp = (s.dropRegion x.id).disp) ∧
    (eligible s x = true → s.eff Reg.DSP_STARVE ≠ 0 → exec (.spanStarved x.id) s = .next (s.updRegion x.id fun r => { r with starved := true })) ∧
    (x.st = .closing → (∀ d ∈ s.disp.drives, d.rid = x.id → d.op = 0 → d.ran = true) → s.request x.req = none → (∀ y ∈ s.disp.regions, y.waitsFor = []) →
      ∃ t, exec (.writeBackCommitted x.id) s = .next t ∧ ∃ y, t.region x.id = some y ∧ y.st = .done ∧ t.cores = s.cores)) ∧
  (∀ (s : State) (co : CourseId) (railUj : Option Nat) (driveUj heatUj : Nat),
    let c := s.course co.val
    co.val < s.courses.length → s.disp.stopped = false →
    (dozing s = false → c.planned = false → c.pathStop = false → courseRate s co.val ≠ 0 →
      ∃ t, exec (.planningPoint co) s = .next t ∧ (t.course co.val).planned = true ∧ t.cores = s.cores ∧ t.time = s.time) ∧
    (c.planned = true → c.frameOpen = false → s.reg (Reg.DSP_CO_FRAMES + 8 * co.val) 2 = 0 ∨ c.startAt.toNat + periodOf c.rate ≤ s.time.toNat → wmapWf regReset s.regs.val = true →
      ∃ t, exec (.courseFrameStart co) s = .next t ∧
        t.course co.val = { c with rate := courseRate s co.val, now := c.plan, plan := [], planned := false, frameOpen := true, startAt := s.time, tgt := (t.course co.val).tgt } ∧
        (c.rail = .off ∨ c.rail = .fault ∨ midSpan s co.val = true → (t.course co.val).tgt = c.tgt) ∧
        t.reg (Reg.DSP_CO_FRAMES + 8 * co.val) 2 = (s.reg (Reg.DSP_CO_FRAMES + 8 * co.val) 2 + 1) % 4294967296 ∧ t.mem = s.mem ∧ t.cores = s.cores) ∧
    (c.frameOpen = true → (s.portsOf co.val).all (fun p => (s.port p).frame.isNone) = true →
      ∃ t, exec (.courseFrameReconcile co railUj driveUj heatUj) s = .next t ∧ (t.course co.val).frameOpen = false ∧ (t.course co.val).now = [] ∧ t.cores = s.cores))

/-- R173, R176: the buckets gain at their rates and never above their depth, ISSUED counts exactly what the energy bucket gains, and so a state whose audit holds keeps it. R176, R444, R183, R139, R190: the toll audit repairs a state whose identity fails, and its outcome always passes; heat lowers and raises a course's rate by 5 Hz within 25 Hz and its nominal rate; a reading whose age reaches WF_TSTALE is marked stale, and its event is not logged a second time for the slate; a lost link leaves its port without a slate. Where several courses are lowered, the lowest-numbered rises first: R183 says only that one does (the model's choice: log entry 34). -/
def Obligations.BucketsAuditsHeatAndLostLinksTakeEffect : Prop :=
  (∀ (s : State), s.disp.auditOk = true →
    ∃ t, exec .bucketRefill s = .next t ∧ t.disp.auditOk = true ∧ s.disp.ebucket ≤ t.disp.ebucket ∧ t.disp.held = s.disp.held ∧ t.disp.spent = s.disp.spent ∧
      (s.disp.ebucket ≤ bucketDepth s → t.disp.ebucket = min (bucketDepth s : Int) (s.disp.ebucket + capWatts s)) ∧
      (s.disp.hbucket ≤ bucketDepth s → t.disp.hbucket = min (bucketDepth s : Int) (s.disp.hbucket + s.regF Reg.PM_HRATE 6 0)) ∧
      t.disp.regions = s.disp.regions ∧ t.mem = s.mem ∧ t.regs = s.regs ∧ t.cores = s.cores) ∧
  (∀ (s : State) (p : PortId) (co : Nat),
    let nom := s.regF (Reg.DSP_CO_CFG + 8 * co) 14 8
    (∃ t, exec .tollAudit s = .next t ∧ t.disp.auditOk = true ∧ t.disp.regions = s.disp.regions ∧ t.mem = s.mem ∧ (s.disp.auditOk = true → t = s)) ∧
    (s.disp.hbucket < 0 → (List.range 8).filter (fun x => courseRate s x ≠ 0 && heatInProgress s x ≠ 0) = [co] → 30 ≤ nom → (s.course co).heatRate = 0 → co < s.courses.length →
      ∃ t, exec .heatRateLower s = .next t ∧ (t.course co).heatRate = nom - 5 ∧ t.mem = s.mem ∧ t.disp = s.disp) ∧
    ((bucketDepth s : Int) < 2 * s.disp.hbucket → (List.range 8).find? (fun x => (s.course x).heatRate ≠ 0) = some co → co < s.courses.length →
      ∃ t, exec .heatRateRaise s = .next t ∧ (t.course co).heatRate = (if nom ≤ (s.course co).heatRate + 5 then 0 else (s.course co).heatRate + 5) ∧ t.mem = s.mem ∧ t.disp = s.disp) ∧
    (p.val < s.ports.length → (s.port p.val).tempOk = true → (s.port p.val).staleT = false → s.reg Reg.WF_TSTALE ≠ 0 →
      (s.port p.val).tempAt.toNat + 100000000 * s.reg Reg.WF_TSTALE ≤ s.time.toNat →
      ∃ t, exec (.temperatureReadingStale p) s = .next t ∧ t.port p.val = { s.port p.val with staleT := true, staleEv := some (match (s.port p.val).slate with | some sl => sl.serial | none => 0) } ∧ t.mem = s.mem ∧ t.disp = s.disp) ∧
    (p.val < s.ports.length → (s.port p.val).slate.isSome = true → (s.port p.val).st ≠ .active →
      ∃ t, exec (.lostLinkTimeout p) s = .next t ∧ (t.port p.val).slate = none ∧ (t.port p.val).drivable = false ∧ t.cores = s.cores))

/-! The slate link (R289 to R305, R310 to R312) -/

/-- R297, R299, Table 10.4: within LIMIT and the replay window, with its course in no fault path (R328), a port sends FRAME_BEGIN, then the lines of its frame, then FRAME_END, each with the SSEQ NEXT, which advances, and keeps each for replay; a replay goes first. A CREDIT that meets R299 moves ACKED, DONE and LIMIT; it credits the lines of an open frame that lie before DONE, and the one that credits FRAME_END, with every line credited, ends the frame; one that does not meet R299 is counted. NAK and the replay timeout send again from ACKED. -/
def Obligations.StreamPacketsAreSentCreditedAndReplayed : Prop :=
  ∀ (s : State) (p : PortId) (f : TxFrame) (y : Nat) (ys : List Nat) (acked done limit arg : Word) (k : DownPkt) (ks : List DownPkt),
    let t0 := s.port p.val
    let sends (x : DownPkt) (g : TxFrame → TxFrame) (u : Port → Port) : Prop :=
      ∃ t, exec (.streamPacketSend p) s = .next t ∧ t.cores = s.cores ∧ t.disp = { s.disp with drives := t.disp.drives } ∧
        t.port p.val = u { t0 with next := t0.next + 1, replayBuf := t0.replayBuf ++ [(x, 1)], lastSent := some x, gap := false, frame := t0.frame.map g }
    let again (u : Port) : Prop := u.resend = (u.replayBuf.map fun e => e.1.asReplay)
    let open_ : Prop := s.disp.stopped = false ∧ (s.course (s.courseOf p.val)).pathStop = false
    p.val < s.ports.length → t0.st = .active → t0.xfers = [] → (∀ x ∈ t0.trans, x.due = false) →
    (open_ → t0.resend = [] → t0.frame = some f → seqLt t0.next t0.limit = true → (t0.next - t0.acked).toNat < 32 →
      (f.began = false → sends (.frameBegin false t0.next f.ftag f.tline f.nlines) (fun f => { f with began := true }) id) ∧
      (f.began = true → f.lines = y :: ys → lineReady (s.course (s.courseOf p.val)).now (planRegions s (s.course (s.courseOf p.val)).now p.val) y = true → lineDriven s p.val y = true → s.poison = [] →
        sends (.line false t0.next f.ftag y (lineSpans s (planRegions s (s.course (s.courseOf p.val)).now p.val) y))
          (fun f => { f with lines := ys, sentLn := f.sentLn ++ [(t0.next, y)] }) (fun u => { u with sentLine := some y })) ∧
      (f.began = true → f.lines = [] → f.endSseq = none → sends (.frameEnd false t0.next f.ftag) (fun f => { f with endSseq := some t0.next }) id)) ∧
    (open_ → t0.resend = k :: ks → (∀ e ∈ t0.replayBuf, e.2 < 8) →
      ∃ t, exec (.streamPacketSend p) s = .next t ∧ (t.port p.val).resend = ks ∧ (t.port p.val).lastSent = some k ∧ (t.port p.val).next = t0.next ∧
        (t.port p.val).replayBuf.map Prod.fst = t0.replayBuf.map Prod.fst ∧ t.mem = s.mem ∧ t.cores = s.cores ∧ t.disp = s.disp) ∧
    (creditOk t0 acked done limit = true → t0.frame = none →
      ∃ t, exec (.credit p acked done limit) s = .next t ∧ t = s.updPort p.val (fun _ => t.port p.val) ∧ (t.port p.val).acked = acked ∧ (t.port p.val).done = done ∧
        (t.port p.val).limit = limit ∧ (t.port p.val).next = t0.next ∧
        ∀ e, e ∈ (t.port p.val).replayBuf ↔ e ∈ t0.replayBuf ∧ ∀ q, e.1.sseq = some q → seqLt q acked = false) ∧
    (creditOk t0 acked done limit = true → t0.frame = some f →
      let f' : TxFrame := { f with cred := f.cred ++ (f.sentLn.filter fun e => seqLt e.1 done).map (·.2), sentLn := f.sentLn.filter fun e => !seqLt e.1 done }
      ((f.endSseq.any fun e => seqLt e done) = false → ∃ t, exec (.credit p acked done limit) s = .next t ∧ t = s.updPort p.val (fun _ => t.port p.val) ∧ (t.port p.val).acked = acked ∧
        (t.port p.val).done = done ∧ (t.port p.val).limit = limit ∧ (t.port p.val).next = t0.next ∧ (t.port p.val).frame = some f') ∧
      ((f.endSseq.any fun e => seqLt e done) = true → (∀ y ∈ f.all, y ∈ f'.cred) → acked = t0.next → done = t0.next →
        ∃ t, exec (.credit p acked done limit) s = .next t ∧ (t.port p.val).frame = none ∧ (t.port p.val).acked = acked ∧ (t.port p.val).done = done ∧ (t.port p.val).limit = limit ∧
          (t.port p.val).next = t0.next ∧ t.disp.regions = s.disp.regions ∧ t.ras = s.ras ∧ t.mem = s.mem ∧ t.cores = s.cores)) ∧
    (creditOk t0 acked done limit = false → t0.grace = false → t0.fails = [] → wmapWf regReset s.regs.val = true →
      ∃ t, exec (.credit p acked done limit) s = .next t ∧ t.reg (Reg.SL_PROTO + 32 * p.val) 2 = min 4294967295 (s.reg (Reg.SL_PROTO + 32 * p.val) 2 + 1) ∧
        t.port p.val = { t0 with fails := [s.time.toNat] } ∧ t.mem = s.mem ∧ t.disp = s.disp) ∧
    (seqLe t0.acked arg = true → seqLe arg t0.next = true →
      ∃ t, exec (.eventNak p arg) s = .next t ∧ (t.port p.val).acked = arg ∧ again (t.port p.val) ∧ t.mem = s.mem ∧ t.disp = s.disp) ∧
    ((seqLe t0.acked arg && seqLe arg t0.next) = false → exec (.eventNak p arg) s = .next (countProto (countCrc s p.val) p.val)) ∧
    (t0.acked ≠ t0.next → ∃ t, exec (.replayTimeout p) s = .next t ∧ (t.port p.val).acked = t0.acked ∧ again (t.port p.val) ∧ t.mem = s.mem ∧ t.disp = s.disp)

/-- R300, R302, R315, R467, R289: what the bridge reports. A protocol error is counted and logged and begins a new session; an overrun makes the port retrain; a driver fault is logged; a packet with a symbol error, another length or a failed CRC is counted as corrupted, one with a reserved type or EVENT code as a protocol error, one with a nonzero reserved field as both; STATUS keeps the temperature and the stretch, and a lane with too many errors makes the port retrain, which leaves it only where it does not lock then. R300, R304, R305, R312: READ_DATA ends the transaction of its TAG, and one with no transaction is counted; a busy answer leaves the transaction to be sent again; a transaction unanswered is sent again up to 3 times, and then the port retrains; a chunk of a life write that is answered leaves one fewer: LCRC is sent as the last one, once every other chunk has been answered, and with its answer the copy has its GEN; a chunk of a life write that has failed is given up, and its answer changes nothing else. -/
def Obligations.BridgeReportsAndTransactionsAreActedOn : Prop :=
  (∀ (s : State) (p : PortId) (sseq line temp stretch : Word) (sftag flags l0 l1 : Byte) (ms : Nat) (bytes : List Byte),
    let t0 := s.port p.val
    let logged (s : State) : State := raiseSl (logEv (countProto s p.val) 0x4030 .action 6 p.val) 4 p.val
    p.val < s.ports.length → wmapWf regReset s.regs.val = true →
    (exec (.corruptedUpstreamPacket p none) s = .next (countCrc s p.val) ∧
      ((bytes.length < 3 ∨ crc16Bytes bytes ≠ 0) → exec (.corruptedUpstreamPacket p (some bytes)) s = .next (countCrc s p.val)) ∧
      (3 ≤ bytes.length → crc16Bytes bytes = 0 →
        (upLength bytes = none → exec (.corruptedUpstreamPacket p (some bytes)) s = .next (countProto s p.val)) ∧
        (∀ n, upLength bytes = some n → n ≠ bytes.length → exec (.corruptedUpstreamPacket p (some bytes)) s = .next (countCrc s p.val)) ∧
        (upLength bytes = some bytes.length → upReserved bytes = true → exec (.corruptedUpstreamPacket p (some bytes)) s = .next (countCrc (countProto s p.val) p.val)) ∧
        (upLength bytes = some bytes.length → upReserved bytes = false → byteAt bytes 0 / 16 = 0xB → byteAt bytes 1 ∉ [1, 2, 3, 4] →
          exec (.corruptedUpstreamPacket p (some bytes)) s = .next (countProto s p.val)))) ∧
    (t0.st = .active →
      exec (.eventProtocolError p sseq) s = .next (newSession (logged s) p.val) ∧ exec (.eventOverrun p sseq) s = .next (retrain (logged s) p.val) ∧
      exec (.eventDriverFault p line) s = .next (logEv s 0x4032 .action 6 p.val) ∧
      (t0.frame = none → ∃ t, exec (.eventProtocolError p sseq) s = .next t ∧ (t.port p.val).acked = t0.next ∧ (t.port p.val).done = t0.next ∧
        (t.port p.val).limit = t0.next + BitVec.ofNat 16 t0.buf ∧ (t.port p.val).replayBuf = [] ∧ (t.port p.val).lastSent = some (.creditSync true t0.next) ∧ t.disp = s.disp) ∧
      (∃ t, exec (.eventOverrun p sseq) s = .next t ∧ (t.port p.val).st = .retrain ∧ t.disp = s.disp ∧ t.mem = s.mem) ∧
      (32 ≤ flags.toNat → exec (.status p temp stretch sftag flags l0 l1 ms) s = .next (countCrc (countProto s p.val) p.val)) ∧
      (flags.toNat < 32 → flags.getLsbD 0 = false → s.eff Reg.SL_CFG % 256 = 0 →
        ∃ t, exec (.status p temp stretch sftag flags l0 l1 ms) s = .next t ∧ t.reg (Reg.SL_TEMP + 32 * p.val) = temp.toNat ∧ t.reg (Reg.SL_STR + 32 * p.val) = stretch.toNat ∧
          t.port p.val = { t0 with tempOk := true, tempSeen := true, tempAt := s.time, staleT := false, staleEv := none, statSeen := true } ∧ t.mem = s.mem ∧ t.disp = s.disp) ∧
      (flags.toNat < 32 → t0.d0 = true → t0.statSeen = true → 1 ≤ ms → s.eff Reg.SL_CFG % 256 ≠ 0 → (l0 = 0xFF ∨ s.eff Reg.SL_CFG % 256 * ms < l0.toNat) →
        ∃ t, exec (.status p temp stretch sftag flags l0 l1 ms) s = .next t ∧ (t.port p.val).d0 = true ∧ (t.port p.val).st = .retrain ∧ t.mem = s.mem))) ∧
  (∀ (s : State) (p : PortId) (tag : BitVec 4) (rstat : Byte) (data : List Byte) (x : Trans) (w : LifeWrite),
    let t0 := s.port p.val
    let resent : DownPkt := if x.write then .bridgeWrite x.tag x.addr x.data else .bridgeRead x.tag x.addr x.len
    p.val < s.ports.length → t0.st = .active →
    (t0.trans.find? (·.tag == tag) = none → exec (.readData p tag rstat data) s = .next (countProto s p.val)) ∧
    (t0.trans.find? (·.tag == tag) = some x →
      (x.dead = false → ∃ t, exec (.readData p tag 3 data) s = .next t ∧
        t.port p.val = { t0 with trans := t0.trans.map fun y => if y.tag == tag then { y with busy := true } else y } ∧ t.mem = s.mem ∧ t.disp = s.disp) ∧
      (x.dead = true → t0.xfers = [] → (∀ y ∈ t0.trans, y.due = false) → ∀ i ∈ [Instr.readData p tag rstat data, Instr.transactionRetry p tag],
        ∃ t, exec i s = .next t ∧ t.port p.val = { t0 with trans := t0.trans.filter (·.tag != tag) } ∧ t.mem = s.mem ∧ t.disp = s.disp) ∧
      (rstat ≠ 3 → t0.xfers = [] → (∀ y ∈ t0.trans, y.due = false) → ¬ (x.write = true ∧ 0xF00000 ≤ x.addr ∧ x.addr < 0xF80000) → ¬ (0xFE0000 ≤ x.addr ∧ x.addr < 0xFE0100) → ¬ (x.write = false ∧ x.addr = 0xFF0000) →
        ∃ t, exec (.readData p tag rstat data) s = .next t ∧ t.port p.val = { t0 with trans := t0.trans.filter (·.tag != tag) } ∧ t.mem = s.mem ∧ t.disp = s.disp) ∧
      (t0.xfers = [] → (∀ y ∈ t0.trans, y.due = false) → x.dead = false → x.write = true → 0xF00000 ≤ x.addr → x.addr < 0xF80000 → t0.lifeW = some w →
        ∃ t, exec (.readData p tag 0 data) s = .next t ∧ t.mem = s.mem ∧ t.disp = s.disp ∧
          (2 < w.left → t.port p.val = { t0 with trans := t0.trans.filter (·.tag != tag), lifeW := some { w with left := w.left - 1 } }) ∧
          (w.left = 2 → (t.port p.val).lifeW = some { w with left := 1 } ∧
            ∃ y ∈ (t.port p.val).trans, y.write = w.last.write ∧ y.addr = w.last.addr ∧ y.len = w.last.len ∧ y.data = w.last.data) ∧
          (w.left = 1 → w.host = none → t.port p.val = { t0 with
            trans := t0.trans.filter (·.tag != tag), lifeW := none
            slate := t0.slate.map fun sl => if w.copyB then { sl with genB := some w.gen } else { sl with genA := some w.gen } })) ∧
      (x.dead = false → x.retries < 3 → mayInsert t0 = true → (∀ y ∈ t0.trans, y.due = false) → ∃ t, exec (.transactionRetry p tag) s = .next t ∧ (t.port p.val).lastSent = some resent ∧
        (t.port p.val).trans = (t0.trans.map fun y => if y.tag == tag then { y with retries := x.retries + 1 } else y) ∧ t.mem = s.mem ∧ t.disp = s.disp) ∧
      (x.dead = false → 3 ≤ x.retries → ∃ t, exec (.transactionRetry p tag) s = .next t ∧ (t.port p.val).st = .retrain ∧ t.mem = s.mem ∧ t.disp = s.disp) ∧
      (x.busy = true → mayInsert t0 = true → (∀ y ∈ t0.trans, y.due = false) → ∃ t, exec (.transactionBusyRetry p tag) s = .next t ∧ (t.port p.val).lastSent = some resent ∧ t.mem = s.mem ∧ t.disp = s.disp)))

/-- R301 to R303, Table 10.7: DETECT to ALIGN; ALIGN to CONFIG by a PONG with a lock, to DETECT after 4 pings; CONFIG to ACTIVE by a CREDIT, to DETECT after 3 timeouts; ACTIVE to RETRAIN at a loss of lock, a credit timeout or RETRAIN = 1; RETRAIN to ACTIVE by a PONG of the same BOOTCNT, to CONFIG with a new session by a PONG of another, to DETECT by a PONG without a good lane or by its timeout. OFF to DETECT at WM14 for a port that PORTS enables, and at the end of DOZE with its session kept; to OFF at DOZE entry, with the session kept, and, with none kept, where a plan swap disables the port or the main domain is reset. A PONG whose PTAG answers no PING is ignored, and one that is not formed as R290 asks is counted as a protocol error and as corrupted (the model's readings: log entry 36). -/
def Obligations.PortsTrainByTable107 : Prop :=
  ∀ (s : State) (p : PortId) (l0 l1 : Bool) (ptag buf boot ver : Byte) (rtt acked done limit : Word) (o : Order) (src : WakeBit),
    let t0 := s.port p.val
    let kept (t : Port) : Prop := t.next = t0.next ∧ t.acked = t0.acked ∧ t.done = t0.done ∧ t.limit = t0.limit ∧ t.buf = t0.buf ∧ t.boot = t0.boot
    let goes (i : Instr) (x : PortState) : Prop := ∃ t, exec i s = .next t ∧ (t.port p.val).st = x ∧ t.mem = s.mem ∧ t.cores = s.cores ∧ t.disp = s.disp
    let formed : Prop := 31 ≤ buf.toNat ∧ ver = 1
    p.val < s.ports.length →
    (t0.st = .detect → goes (.idleSetsReceived p) .align) ∧
    (t0.st = .align → formed → (l0 || l1) = true → t0.frame = none → goes (.pong p l0 l1 t0.ptag buf boot ver rtt) .config) ∧
    (t0.st = .align → t0.pings < 4 → ∃ t, exec (.pingTimer p) s = .next t ∧
      t.port p.val = { t0 with ptag := t0.ptag + 1, pings := t0.pings + 1, gap := true, lastSent := some (.ping 3 (t0.ptag + 1)) } ∧ t.mem = s.mem ∧ t.disp = s.disp) ∧
    (t0.st = .align → 4 ≤ t0.pings → goes (.pingTimer p) .detect) ∧
    (t0.st = .config → creditOk t0 acked done limit = true → t0.frame = none → (∀ r ∈ s.regionsOn p.val, r.lost = false) → goes (.credit p acked done limit) .active) ∧
    (t0.st = .config → t0.cfgTries < 2 → ∃ t, exec (.configTimeout p) s = .next t ∧
      t.port p.val = { t0 with cfgTries := t0.cfgTries + 1, gap := true, lastSent := some (.creditSync t0.syncReset t0.next) } ∧ t.mem = s.mem ∧ t.disp = s.disp) ∧
    (t0.st = .config → 2 ≤ t0.cfgTries → goes (.configTimeout p) .detect) ∧
    (t0.st = .active → goes (.symbolLockLost p) .retrain ∧ goes (.creditTimeout p) .retrain ∧ goes (.portRetrain p) .retrain) ∧
    (t0.st = .retrain → formed → (t0.d0 && l0 || t0.d1 && l1) = true → t0.boot = some boot → t0.newSlate = false → goes (.pong p l0 l1 t0.ptag buf boot ver rtt) .active) ∧
    (t0.st = .retrain → formed → (t0.d0 && l0 || t0.d1 && l1) = true → t0.boot ≠ some boot → t0.frame = none → goes (.pong p l0 l1 t0.ptag buf boot ver rtt) .config ∧
      ∃ t, exec (.pong p l0 l1 t0.ptag buf boot ver rtt) s = .next t ∧ (t.port p.val).lastSent = some (.creditSync true t0.next) ∧ (t.port p.val).boot = some boot ∧ (t.port p.val).replayBuf = []) ∧
    (t0.st = .retrain → formed → (t0.d0 && l0 || t0.d1 && l1) = false → goes (.pong p l0 l1 t0.ptag buf boot ver rtt) .detect) ∧
    (t0.st = .retrain → goes (.retrainTimeout p) .detect) ∧
    (t0.st = .off → s.portEn p.val = true → ((wmBegin s 14).port p.val).st = .detect) ∧
    (t0.st = .off → s.portEn p.val = true → s.power.st = .doze → wakeEnabled s src.val = true → wmapWf regReset s.regs.val = true →
      ∃ t, exec (.dozeExit src) s = .next t ∧ (t.port p.val).st = .detect ∧ kept (t.port p.val)) ∧
    (s.power.cur = some o → o.target = .doze → s.power.inTrans = false → s.power.st = .run ∨ s.power.st = .idle → dspIdle s = true → rolesWait s = true →
      ∃ t, exec .dozeEntry s = .next t ∧ (t.port p.val).st = .off ∧ kept (t.port p.val)) ∧
    ((disablePort s p.val).port p.val = Port.reset ∧ Port.reset.st = .off ∧ (mainReset s).port p.val = Port.reset) ∧
    (formed → ptag ≠ t0.ptag → exec (.pong p l0 l1 ptag buf boot ver rtt) s = .next s) ∧
    (¬ formed → exec (.pong p l0 l1 ptag buf boot ver rtt) s = .next (countCrc (countProto s p.val) p.val))

/-- R310 to R312: a life write goes to the copy with the lower GEN, or to the one that is not valid, with GEN one above the other's, as writes of at most 128 bytes, LCRC last; with neither copy valid it goes to copy A with GEN 1 (the model's reading: log entry 48). The less significant byte of each field goes first (the model's choice: log entry 57). A second of front light counts on every slate of a lit course. -/
def Obligations.LifeIsWrittenAndCounted : Prop :=
  ∀ (s : State) (p : PortId) (sl : Slate) (x y : Nat),
    let t0 := s.port p.val
    let writes (t : State) (b : Bool) (gen : Nat) : Prop :=
      let at_ := if b then 0xF40000 else 0xF00000
      let ws := writesOf 2200 at_ (lifeBody sl gen)
      (t.port p.val).lifeW = some ⟨b, gen, ws.length + 1, ⟨true, at_ + (lifeBody sl gen).length, 4, bytesOfNat 4 (crc32Bytes (lifeBody sl gen))⟩, none⟩ ∧
        (t.port p.val).trans.length + (t.port p.val).xfers.length = t0.trans.length + t0.xfers.length + ws.length ∧ t.mem = s.mem ∧ t.disp = s.disp
    p.val < s.ports.length → t0.slate = some sl → t0.lifeW = none → t0.st = .active →
    (sl.genA = none → sl.genB = none → ∃ t, exec (.lifeWriteNow p) s = .next t ∧ writes t false 1) ∧
    (sl.genA = some x → sl.genB = none → x < 4294967295 → ∃ t, exec (.lifeWriteNow p) s = .next t ∧ writes t true (x + 1)) ∧
    (sl.genA = none → sl.genB = some x → x < 4294967295 → ∃ t, exec (.lifeWriteNow p) s = .next t ∧ writes t false (x + 1)) ∧
    (sl.genA = some x → sl.genB = some y → x < 4294967295 → y < 4294967295 →
      (∃ t, exec (.lifeWriteNow p) s = .next t ∧ writes t (decide (y < x)) (max x y + 1)) ∧
      (∃ t, exec .lifeWritePeriod s = .next t ∧ (t.port p.val).lifeW.map (fun w => (w.copyB, w.gen)) = some (decide (y < x), max x y + 1) ∧ t.disp = s.disp)) ∧
    (let c := s.course (s.courseOf p.val)
     s.portEn p.val = true → c.flEn = true → c.flPwm = true → c.dutyEff ≠ 0 →
      ∃ t, exec .lightSecond s = .next t ∧ t.port p.val = { t0 with slate := some { sl with light := (sl.light + 1) % 4294967296 } } ∧ t.mem = s.mem ∧ t.disp = s.disp)

/-- R306 to R309, Table 10.11: a slate whose record fails a check is not driven, and the code stands in SL_RECn; one whose port asks for authentication, and whose certificate passes, is sent the challenge, one whose certificate fails is handled by its policy, as it stood when the attach began (Table 15.9); with policy 0 its body is taken at once. A challenge that cannot be written fails step 3; the mailbox is polled until the signature is there, which is then read; one that does not verify, or does not come within 100 ms, fails step 5. -/
def Obligations.SlatesAttachByTheirRecord : Prop :=
  ∀ (s : State) (p : PortId) (d : SlateData) (tag : BitVec 4) (rstat flag : Byte) (sig psig : List Byte) (x : Trans),
    let t0 := s.port p.val
    let u : State := (s.regSet (portReg Reg.SL_SERIAL p.val) (fieldBytes d.header 8 8) 4).regSetF (portReg Reg.SL_REC p.val) 7 4 0
    let pol := u.regF (portReg Reg.SL_PCFG p.val) 11 10
    let v : State := u.updPort p.val fun t => { t with authPol := pol }
    (d.header.length = 256 → d.cert.length = 192 → t0.st = .active → t0.slate = none → t0.pendingAt = none → s.portEn p.val = true →
      (headerCheck s p.val d ≠ 0 → exec (.slateAttach p d) s = .next (attachFails u p.val (headerCheck s p.val d)) ∧
        (p.val < s.ports.length → wmapWf regReset s.regs.val = true → s.disp.regions = [] →
          ∃ t, exec (.slateAttach p d) s = .next t ∧ (t.port p.val).drivable = false ∧ (t.port p.val).slate = none ∧
            t.regF (portReg Reg.SL_REC p.val) 3 0 = headerCheck s p.val d ∧ t.mem = s.mem)) ∧
      (headerCheck s p.val d = 0 → pol = 0 → exec (.slateAttach p d) s = .next (attachBody u p.val d)) ∧
      (headerCheck s p.val d = 0 → pol ≠ 0 → p.val < s.ports.length →
        ∃ t, exec (.slateAttach p d) s = .next t ∧ (certCheck u d ≠ 0 → t = authDone v p.val d (certCheck u d)) ∧
          (certCheck u d = 0 → (t.port p.val).pendingAt = some d ∧ (t.port p.val).authPol = pol ∧ (t.port p.val).challenge.length = 32 ∧ (t.port p.val).polls = 0 ∧ (t.port p.val).slate = none ∧ t.mem = s.mem))) ∧
    (t0.pendingAt = some d →
      (t0.authStage < 3 → exec (.authPoll p flag psig) s = .next s) ∧
      (3 ≤ t0.authStage → 99 ≤ t0.polls → exec (.authPoll p flag psig) s = .next (authDone s p.val d 5)) ∧
      (t0.authStage = 3 → t0.st = .active → t0.polls < 99 → t0.xfers = [] → t0.trans = [] → t0.frame = none → p.val < s.ports.length →
        ∃ t, exec (.authPoll p flag psig) s = .next t ∧ t = s.updPort p.val (fun _ => t.port p.val) ∧ (t.port p.val).polls = t0.polls + 1 ∧ (t.port p.val).lastSent = some (.bridgeRead 0 0xFE0021 1)) ∧
      (t0.st = .active → t0.trans.find? (·.tag == tag) = some x → x.dead = false → rstat ≠ 3 → ¬ (x.write = true ∧ 0xF00000 ≤ x.addr ∧ x.addr < 0xF80000) →
        let a := startXfers (s.updPort p.val fun t => { t with trans := t.trans.filter (·.tag != tag) }) p.val
        (t0.authStage = 1 → x.write = true → x.addr = 0xFE0000 → rstat ≠ 0 → p.val < s.ports.length → exec (.readData p tag rstat sig) s = .next (authDone a p.val d 3)) ∧
        (t0.authStage = 4 → x.write = false → x.addr = 0xFE0040 → p.val < s.ports.length → exec (.readData p tag 0 sig) s =
          .next (authDone a p.val d (if p256.verifyBytes ((d.cert.drop 0x14).take 64) sig (sha256 (t0.challenge ++ (d.cert.drop 0x54).take 32)) then 0 else 5)))))

/-! The rail die (R318 to R337) -/

/-- R321 to R326, Tables 11.2 and 11.3: a power-on that waits begins at step 1; a step ends when its rails are power-good, and the last one makes the course UP; a power-off begins when no span runs, and its last step makes the course OFF. An ON cancels an OFF that has not begun; an OFF of a course whose rails are off, and an ON while RAILS_OFF holds or in SAFE-DRIVE, change nothing, and a power-on that waits does not begin. That an OFF during a power-off cancels an ON kept for after it is the model's choice (log entry 57). A course whose path is stopped ends its last step in FAULT (the model's reading: log entry 37). -/
def Obligations.CoursesPowerOnAndOffInSteps : Prop :=
  ∀ (s : State) (co : CourseId) (rail : Fin 9),
    let c := s.course co.val
    let set (f : Course → Course) : State := s.updCourse co.val f
    let only (i : Instr) (f : Course → Course) : Prop := ∃ t, exec i s = .next t ∧ t.course co.val = f c ∧ t.mem = s.mem ∧ t.cores = s.cores
    co.val < s.courses.length →
    (bitN s.side.railsOff.toNat co.val = true ∨ s.boot.outcome = .safeDrive → exec (.coursePowerOn co) s = .next s) ∧
    (bitN s.side.railsOff.toNat co.val = false → s.boot.outcome ≠ .safeDrive →
      (c.rail = .off → exec (.coursePowerOn co) s = .next (set fun c => { c with onWait := true })) ∧
      (c.rail = .rising → exec (.coursePowerOn co) s = .next s) ∧
      (c.rail = .up → exec (.coursePowerOn co) s = .next (set fun c => { c with offWait := false, autoOff := false })) ∧
      (c.rail = .falling → exec (.coursePowerOn co) s = .next (set fun c => { c with onAfter := true })) ∧
      (c.rail = .fault → exec (.coursePowerOn co) s = .next (set fun c => { c with onWait := true, retryWait := false }))) ∧
    (c.rail = .off → exec (.coursePowerOff co) s = .next s) ∧
    (c.rail = .falling → exec (.coursePowerOff co) s = .next (set fun c => { c with onAfter := false, autoOff := false })) ∧
    (c.rail = .fault → exec (.coursePowerOff co) s = .next s) ∧
    (c.rail = .up → s.disp.regions = [] → only (.coursePowerOff co) fun c => { c with offWait := true, autoOff := false }) ∧
    (c.rail = .rising → ∃ t, exec (.coursePowerOff co) s = .next t ∧ (t.course co.val).rail = .falling ∧
      (t.course co.val).step = (match c.step with | 5 => 1 | 4 => 4 | 3 => 5 | 2 => 6 | _ => 7) ∧ t.mem = s.mem ∧ t.disp = s.disp) ∧
    (c.onWait = true → c.rail = .off → c.pathStop = false → bitN s.side.railsOff.toNat co.val = false → s.boot.outcome ≠ .safeDrive → canPowerOn s co.val = true →
      ∃ t, exec (.powerOnStart co) s = .next t ∧ (t.course co.val).rail = .rising ∧ (t.course co.val).step = 1 ∧ (t.course co.val).good = [] ∧
        (t.course co.val).onWait = false ∧ t.mem = s.mem ∧ t.disp = s.disp) ∧
    (c.onWait = true → bitN s.side.railsOff.toNat co.val = true ∨ s.boot.outcome = .safeDrive → exec (.powerOnStart co) s = .next s) ∧
    (c.onWait = true → c.rail = .fault → c.pathStop = false → bitN s.side.railsOff.toNat co.val = false → s.boot.outcome ≠ .safeDrive → canPowerOn s co.val = true →
      ∃ t, exec (.powerOnStart co) s = .next t ∧ (t.course co.val).rail = .rising ∧ (t.course co.val).step = 1 ∧ (t.course co.val).onWait = false) ∧
    (c.rail = .rising → (stepRails c.step).contains rail.val = true → rail ∉ c.good →
      ((stepRails c.step).all (fun r => (c.good ++ [rail]).any (·.val == r)) = false → exec (.railPowerGood co rail) s = .next (set fun c => { c with good := c.good ++ [rail] })) ∧
      ((stepRails c.step).all (fun r => (c.good ++ [rail]).any (·.val == r)) = true → c.step < 5 →
        exec (.railPowerGood co rail) s = .next (set fun c => { c with step := c.step + 1, good := [] })) ∧
      ((stepRails c.step).all (fun r => (c.good ++ [rail]).any (·.val == r)) = true → c.step = 5 → s.disp.regions = [] →
        ∃ t, exec (.railPowerGood co rail) s = .next t ∧ (t.course co.val).rail = .up ∧ (t.course co.val).step = 0 ∧ t.mem = s.mem ∧ t.disp = s.disp)) ∧
    (c.rail = .up → c.offWait = true → spanRuns s co.val = false → c.frameOpen = false →
      ∃ t, exec (.powerOffStart co) s = .next t ∧ (t.course co.val).rail = .falling ∧ (t.course co.val).step = 1 ∧ (t.course co.val).offWait = false ∧ t.mem = s.mem ∧ t.disp = s.disp) ∧
    (c.rail = .falling → s.power.vinStep = 0 → c.waitAt = none →
      (c.step < 7 → c.step ≠ 2 → exec (.railDischarged co) s = .next (set fun c => { c with step := c.step + 1 })) ∧
      (c.step = 2 → ∃ t, exec (.railDischarged co) s = .next t ∧ t.course co.val = { c with step := 3 } ∧ t.mem = s.mem ∧ t.disp = s.disp) ∧
      (7 ≤ c.step → c.pathStop = false → ∃ t, exec (.railDischarged co) s = .next t ∧ (t.course co.val).rail = .off ∧ (t.course co.val).step = 0 ∧
        (t.course co.val).tgt = List.replicate 9 0 ∧ (t.course co.val).onWait = c.onAfter ∧ t.mem = s.mem ∧ t.disp = s.disp) ∧
      (7 ≤ c.step → c.pathStop = true → ∃ t, exec (.railDischarged co) s = .next t ∧ (t.course co.val).rail = .fault ∧ (t.course co.val).pathStop = false ∧
        (t.course co.val).tgt = List.replicate 9 0 ∧ t.mem = s.mem ∧ t.disp = s.disp)) ∧
    (c.rail = .fault → s.power.vinStep = 0 → c.waitAt = none → c.pathStop = true →
      ∃ t, exec (.railDischarged co) s = .next t ∧ (t.course co.val).rail = .fault ∧ (t.course co.val).pathStop = false ∧ t.mem = s.mem ∧ t.disp = s.disp)

/-- R327 to R330, R325: a power-on step that times out and a soft fault take the prompt path, a hard fault the cut path; either records its cause, stops the course's ports and loses what ran there, once the credits of lines already sent have been waited for. After a soft fault the course is powered on again within its limit, and IDLEOFF asks for a power-off. That the prompt path leaves the course FALLING with its path stopped, and the cut path in FAULT at once, is the model's reading (log entry 37). -/
def Obligations.RailFaultsTakeTheirPath : Prop :=
  ∀ (s : State) (co : CourseId) (cause : BitVec 4) (rail : Fin 9),
    let c := s.course co.val
    let k := Reg.RL_CO_FAULT + 16 * co.val
    let n := min 255 (s.regF k 7 0 + 1)
    let recorded (t : State) (cause rail : Nat) : Prop := t.reg k = cause * 4096 + rail * 256 + n ∧ t.cores = s.cores ∧
      (t.course co.val).flEn = false ∧ (t.course co.val).plan = [] ∧ (t.course co.val).now = [] ∧ (t.course co.val).frameOpen = false
    let tries := ((c.retryAt.filter fun t => decide (s.aon.tick.toNat < t + 3600 * 32768)).length)
    let limit := s.regF (Reg.RL_CO_CFG + 16 * co.val) 14 12
    co.val < s.courses.length → wmapWf regReset s.regs.val = true → c.waitAt = none →
    (c.rail = .up → c.pathStop = false → creditsAwaited s co.val = true → cause = 5 → ∃ t, exec (.railFault co cause rail) s = .next t ∧
      (t.course co.val).waitAt = some s.time ∧ (t.course co.val).rail = .falling ∧ (t.course co.val).frameOpen = c.frameOpen ∧ t.disp.regions = s.disp.regions ∧ t.mem = s.mem) ∧
    (creditsAwaited s co.val = false →
    (c.rail = .rising → c.step ≤ 5 → c.pathStop = false → s.disp.regions = [] →
      ∃ t r, exec (.powerOnStepTimeout co) s = .next t ∧ r < 9 ∧ recorded t 1 r ∧ (t.course co.val).rail = .falling ∧ (t.course co.val).pathStop = true) ∧
    (c.rail = .up → c.pathStop = false → s.disp.regions = [] →
      (cause = 2 ∨ cause = 5 → ∃ t, exec (.railFault co cause rail) s = .next t ∧ recorded t cause.toNat rail.val ∧ (t.course co.val).rail = .falling ∧ (t.course co.val).pathStop = true) ∧
      (cause = 3 ∨ cause = 4 → ∃ t, exec (.railFault co cause rail) s = .next t ∧ recorded t cause.toNat rail.val ∧ (t.course co.val).rail = .fault ∧
        (t.course co.val).hardFault = true ∧ (t.course co.val).tgt = List.replicate 9 0) ∧
      (cause = 6 ∨ cause = 7 → ∃ t, exec (.railFault co cause rail) s = .next t ∧ recorded t cause.toNat rail.val ∧ (t.course co.val).pathStop = true))) ∧
    (c.rail = .off → cause ≠ 6 → cause ≠ 7 → exec (.railFault co cause rail) s = .next s) ∧
    (c.rail = .fault → c.retryWait = true → s.regF k 15 12 ≠ 6 → bitN s.side.railsOff.toNat co.val = false → s.boot.outcome ≠ .safeDrive →
      (tries < limit → ∃ t, exec (.faultRetry co) s = .next t ∧ (t.course co.val).onWait = true ∧ (t.course co.val).retryWait = false ∧
        (t.course co.val).retryAt.length = tries + 1 ∧ t.mem = s.mem ∧ t.disp = s.disp) ∧
      (limit ≤ tries → exec (.faultRetry co) s = .next (logEv (s.updCourse co.val fun c => { c with retryWait := false }) 0x5012 .degraded 7 co.val))) ∧
    (s.regF (Reg.RL_CO_CFG + 16 * co.val) 11 0 ≠ 0 → c.rail = .up → c.frameOpen = false → c.planned = false → c.offWait = false → s.disp.regions = [] →
      ∃ t, exec (.idleoffTimeout co) s = .next t ∧ t.course co.val = { c with offWait := true, autoOff := true } ∧ t.mem = s.mem)

/-- R331 to R334: a loop's reading stands in RL_LOOPn with its band, a masked loop's with band 3; three OPEN readings in a row crack the loop; RL_LOOPCRACK clears it, and RL_LOOPMASK masks it with an event. R335 to R337: FL_EN rises where the conditions of R336 hold and EN = 1, and falls with FL_PWM where one fails; FL_PWM starts, and each period begins, with the DUTY written, of which 0 holds the output low. Their balls are high-impedance until 100 µs after MAIN_PG has risen (R451, R458). -/
def Obligations.LoopsAndFrontLightsFollowChapter11 : Prop :=
  (∀ (s : State) (p : PortId) (rd : List Nat),
    let ohms := rd.getD p.val 0
    let v := min 8191 (ohms / 2)
    let thr := s.reg Reg.RL_LOOPTHR
    let l := s.loops.getD p.val ⟨0, 0, 0, false⟩
    let masked := bitN (s.reg Reg.RL_LOOPMASK 4) p.val
    let crack := bitN (s.reg Reg.RL_LOOPCRACK 4) p.val
    wmapWf regReset s.regs.val = true → s.loops.length = 64 → s.disp.regions = [] →
    (rd.length = 64 → (∀ q, q < 64 → q ≠ p.val → s.portEn q = false) → s.portEn p.val = true →
      (masked = true → ∃ t, exec (.loopMeasurement rd) s = .next t ∧ t.reg (Reg.RL_LOOP + p.val) = 3 * 16384 + v ∧ t.reg Reg.RL_LOOPCRACK 4 = s.reg Reg.RL_LOOPCRACK 4 ∧ t.mem = s.mem) ∧
      (masked = false → 64 * (thr % 256) < 2 * v →
        ∃ t, exec (.loopMeasurement rd) s = .next t ∧ t.reg (Reg.RL_LOOP + p.val) = 2 * 16384 + v ∧
          bitN (t.reg Reg.RL_LOOPCRACK 4) p.val = (crack || decide (2 ≤ l.openN)) ∧ t.mem = s.mem) ∧
      (masked = false → 2 * v ≤ 64 * (thr % 256) → 2 * v ≤ 16 * (thr / 256) →
        ∃ t, exec (.loopMeasurement rd) s = .next t ∧ t.reg (Reg.RL_LOOP + p.val) = v ∧ t.reg Reg.RL_LOOPCRACK 4 = s.reg Reg.RL_LOOPCRACK 4 ∧
          (t.loops.getD p.val ⟨0, 0, 0, false⟩).openN = 0 ∧ t.mem = s.mem) ∧
      (masked = false → 2 * v ≤ 64 * (thr % 256) → 16 * (thr / 256) < 2 * v →
        ∃ t, exec (.loopMeasurement rd) s = .next t ∧ t.reg (Reg.RL_LOOP + p.val) = 16384 + v ∧ t.reg Reg.RL_LOOPCRACK 4 = s.reg Reg.RL_LOOPCRACK 4 ∧ t.mem = s.mem)) ∧
    (crack = true → ∃ t, exec (.loopcrackClear p) s = .next t ∧ bitN (t.reg Reg.RL_LOOPCRACK 4) p.val = false ∧
      (∀ q < 64, q ≠ p.val → bitN (t.reg Reg.RL_LOOPCRACK 4) q = bitN (s.reg Reg.RL_LOOPCRACK 4) q) ∧ (t.loops.getD p.val ⟨0, 0, 0, false⟩).openN = 0 ∧ t.mem = s.mem) ∧
    (masked = false → ∃ t, exec (.loopmaskWrite p true) s = .next t ∧ bitN (t.reg Reg.RL_LOOPMASK 4) p.val = true ∧
      (∀ q < 64, q ≠ p.val → bitN (t.reg Reg.RL_LOOPMASK 4) q = bitN (s.reg Reg.RL_LOOPMASK 4) q) ∧ t.mem = s.mem) ∧
    (masked = true → ∃ t, exec (.loopmaskWrite p false) s = .next t ∧ bitN (t.reg Reg.RL_LOOPMASK 4) p.val = false ∧ t.mem = s.mem)) ∧
  (∀ (s : State) (co : CourseId),
    let c := s.course co.val
    let duty := BitVec.ofNat 12 (s.regF (Reg.RL_CO_LIGHT + 16 * co.val) 11 0)
    let set (f : Course → Course) : State := s.updCourse co.val f
    (lightEn s co.val = true → lightAllowed s co.val = true → exec (.frontLightEnable co) s = .next (set fun c => { c with flEn := true, lightHeld := false })) ∧
    (lightEn s co.val = false ∨ lightAllowed s co.val = false →
      (∃ t, exec (.frontLightEnable co) s = .next t ∧ (t.course co.val).flEn = false ∧ (t.course co.val).flPwm = false) ∧
      (∃ t, exec (.frontLightDisable co) s = .next t ∧ (t.course co.val).flEn = false ∧ (t.course co.val).flPwm = false ∧ t.disp = s.disp ∧ t.mem = s.mem ∧ t.ports = s.ports)) ∧
    (c.flEn = true → c.flPwm = false → exec (.frontLightPwmStart co) s = .next (set fun c => { c with flPwm := true, dutyEff := duty })) ∧
    (c.flEn = false → exec (.frontLightPwmStart co) s = .next s) ∧
    (c.flPwm = true → exec (.pwmPeriodStart co) s = .next (set fun c => { c with dutyEff := duty })) ∧
    (s.boot.hiZ ≠ 0 → flEnPin s co.val = .hiZ ∧ flPwmPin s co.val = .hiZ) ∧
    (s.boot.hiZ = 0 → flEnPin s co.val = (if c.flEn then .high else .low) ∧ flPwmPin s co.val = (if c.flPwm ∧ c.dutyEff ≠ 0 then .high else .low)))

/-! Power states, the always-on domain and the thermal model (Chapter 12) -/

/-- R345 to R351, R346, R383: a POWER order for the state in effect completes at once with OK; SLEEP starts its steps, DOZE waits for its condition, and one during a transition is kept. IDLE is entered, and after its time asks for DOZE; DOZE is entered once the dispatcher is idle and every role waits; SLEEP goes on once the dispatcher is idle; an order that a stop overrides, or one of the same tick for a lower state, yields; one behind a side-lane RESET of an earlier tick waits (R398); wake sources lead out of DOZE and SLEEP, held back below the VIN limit. -/
def Obligations.PowerOrdersAndWakesFollowTable122 : Prop :=
  ∀ (s : State) (r : RingId) (cid : Word) (tk : Taken) (st : PowerState) (src : WakeBit) (o : Order) (vin : BitVec 9),
    let p := s.power
    let code := tk.field 8 1
    let h : HostRef := (r, tk.seq)
    let u : Power := { p with ordTick := tk.tick }
    let order : Order := ⟨st, BitVec.ofNat 32 (tk.field 12 4), .host h, tk.tick, none⟩
    let due : Prop := earlierSide s tk.tick [0x13] = false
    let quiet : Prop := overridden s = false ∧ p.cur = none ∧ p.kept = none ∧ p.ordTick.toNat ≤ tk.tick.toNat ∧ (sideStates s tk.tick).any (fun v => decide (v < code)) = false ∧ due
    wmapWf regReset s.regs.val = true →
    (s.startable r cid 0x60 = some tk →
      (stateOfCode code = none → exec (.power r cid) s = .next (postCompletion (forgetOrder s h) h .badCommand 5)) ∧
      (stateOfCode code = some st → st = .sleep ∨ tk.field 12 4 = 0 → quiet → inTransition s = false →
        (inEffect s st = true → exec (.power r cid) s = .next (postCompletion { s.begin h with power := u } h .ok 0 p.st.code)) ∧
        (inEffect s st = false → st = .doze → ∃ t, exec (.power r cid) s = .next t ∧ t.power = { u with cur := some order } ∧ t.mem = s.mem ∧ t.disp = s.disp) ∧
        (inEffect s st = false → st = .sleep → s.disp.requests = [] →
          ∃ t, exec (.power r cid) s = .next t ∧ t.power = { u with cur := some order, inTrans := true } ∧
            t.disp.sleeping = true ∧ t.reg Reg.AON_WT 2 = tk.field 12 4 ∧ t.mem = s.mem)) ∧
      (stateOfCode code = some st → st = .sleep ∨ tk.field 12 4 = 0 → quiet → inTransition s = true →
        ∃ t, exec (.power r cid) s = .next t ∧ t.power.kept = some order ∧ t.power.st = p.st ∧ t.power.ordTick = tk.tick ∧ t.mem = s.mem ∧ t.disp = s.disp) ∧
      (stateOfCode code = some st → st = .sleep ∨ tk.field 12 4 = 0 → due → overridden s = true → (sideStates s tk.tick).any (fun v => decide (v < code)) = false →
        exec (.power r cid) s = .next (postCompletion (s.begin h) h .yielded 0 p.st.code)) ∧
      (stateOfCode code = some st → st = .sleep ∨ tk.field 12 4 = 0 → due → (sideStates s tk.tick).any (fun v => decide (v < code)) = true →
        exec (.power r cid) s = .next (postCompletion (s.begin h) h .yielded 0 p.st.code)) ∧
      (stateOfCode code = some st → st = .sleep ∨ tk.field 12 4 = 0 → earlierSide s tk.tick [0x13] = true → exec (.power r cid) s = .next s)) ∧
    (p.st = .run → p.inTrans = false → dspIdle s = true → veIdle s = true → s.hif.dma = [] → exec .idleEntry s = .next (setPower s .idle)) ∧
    (s.regF Reg.PM_AUTO 9 0 ≠ 0 → p.st = .idle → p.cur = none → overridden s = false → inTransition s = false →
      exec .dozeAutoTimer s = .next { s with power := { p with cur := some ⟨.doze, 0, .auto, s.aon.tick, none⟩ } }) ∧
    (p.cur = some o → o.target = .doze → p.inTrans = false → p.st = .run ∨ p.st = .idle → dspIdle s = true → rolesWait s = true →
      ∃ t, exec .dozeEntry s = .next t ∧ t.power.st = .doze ∧ t.power.cur = none ∧ t.power.dozeAt = s.aon.tick ∧ (∀ q : PortId, (t.port q.val).st = .off) ∧ t.mem = s.mem ∧ t.time = s.time) ∧
    (p.st = .doze → wakeEnabled s src.val = true →
      ∃ t, exec (.dozeExit src) s = .next t ∧ t.power.st = .run ∧ bitN (t.reg Reg.AON_WAKESRC) src.val = true ∧ t.mem = s.mem ∧ t.disp = s.disp ∧ t.cores = s.cores ∧
        t.time = s.time + BitVec.ofNat 64 (((s.aon.tick - p.dozeAt).toNat * 100000000 + p.timeRem) / 32768)) ∧
    (p.cur = some o → o.target = .sleep → p.inTrans = true → p.vinStep = 0 → p.vinf = false → dspIdle s = true → (journalImage s).all (·.kind == .lost) = true →
      s.ports.all (·.lifeW.isNone) = true → s.ssWords ≠ 0 → slotTaken s = true →
      ∃ t, exec .sleepEntry s = .next t ∧ t.power.sleepOrd = true ∧ t.power.vinStep = 3 ∧ t.boot.jrnSlot = some (journalImage s) ∧
        (∀ co : CourseId, (s.course co.val).rail = .up → (t.course co.val).rail = .falling) ∧ t.mem = s.mem ∧ t.cores = s.cores) ∧
    (p.st = .sleep → src ≠ 0 → src ≠ 7 → wakeEnabled s src.val = true → s.boot.inReset = false → p.coolWait = false → p.wakePend = [] →
      (vinWakes s = true → ∃ t, exec (.wakeFromSleep src) s = .next t ∧ t.boot.cause = 10 ∧ t.boot.inReset = true ∧ bitN (t.reg Reg.AON_WAKESRC) src.val = true ∧ t.mem = s.mem) ∧
      (vinWakes s = false → ∃ t, exec (.wakeFromSleep src) s = .next t ∧ t.boot = s.boot ∧ t.power = { p with wakePend := [src], wakeHeld := true } ∧ t.mem = s.mem)) ∧
    (p.st = .sleep → p.wakePend = [src] → s.boot.inReset = false → p.coolWait = false → vinThr s + 10 ≤ vin.toNat →
      ∃ t, exec (.vinRestored vin) s = .next t ∧ t.boot.cause = 10 ∧ t.boot.inReset = true ∧ t.reg Reg.RL_VIN = vin.toNat ∧ t.mem = s.mem)

/-- R352 to R355, R362: the always-on domain's commands. A wake timer that runs reaches 0; the calendar advances a second, carrying into minutes, hours, days, months and years, with the months' days and the leap years, and the alarm fires where every field of it that is not any is equal; a calendar write is taken whole or discarded; a crystal that stops is logged once; a key changes state after 2 scans that agree; an input is sampled, and its second sample in a row outside LO to HI is a threshold event, once. That a FIFO entry carries the number of the scan that found the change, and that a good check clears the crystal's failure, is the model's choice (log entry 40). -/
def Obligations.AlwaysOnCommandsFollowChapter12 : Prop :=
  ∀ (s : State) (n : Fin 2) (w0 w1 w2 w3 : Word) (c : Cal) (k : Fin 64) (m : BitVec 64) (a0 a1 a2 a3 : BitVec 10) (j : Fin 4) (ws : List Nat),
    let cal (t : State) (ws : List Nat) : Prop := ∀ i < 4, (t.regW (Reg.AON_CAL + i)).toNat = ws.getD i 0
    let down := s.reg Reg.AON_KEYS 4
    wmapWf regReset s.regs.val = true → s.boot.vstby = true →
    (s.reg (Reg.AON_WT + 2 * n.val) 2 ≠ 0 → ∃ t, exec (.wakeTimerExpiry n) s = .next t ∧ t.reg (Reg.AON_WT + 2 * n.val) 2 = 0 ∧ t.mem = s.mem ∧ t.cores = s.cores ∧
      ∃ rest, t.intq = s.intq ++ ⟨16, 0x12 + n.val, 0, 0⟩ :: rest) ∧
    (s.reg (Reg.AON_WT + 2 * n.val) 2 = 0 → exec (.wakeTimerExpiry n) s = .next s) ∧
    (calWords s = c.words → calOf (c.words.getD 0 0) (c.words.getD 1 0) (c.words.getD 2 0) (c.words.getD 3 0) = some c →
      ∃ t, exec .calendarSecond s = .next t ∧ t.mem = s.mem ∧ t.cores = s.cores ∧
        (c.sec < 59 → cal t { c with sec := c.sec + 1 }.words) ∧ (c.sec = 59 → c.min < 59 → cal t { c with sec := 0, min := c.min + 1 }.words) ∧
        (c.sec = 59 → c.min = 59 → c.hour < 23 → cal t { c with sec := 0, min := 0, hour := c.hour + 1 }.words) ∧
        (c.sec = 59 → c.min = 59 → c.hour = 23 → c.day < monthDays c.year c.month →
          cal t { c with sec := 0, min := 0, hour := 0, day := c.day + 1, wday := if c.wday = 7 then 1 else c.wday + 1 }.words) ∧
        (c.sec = 59 → c.min = 59 → c.hour = 23 → c.day = monthDays c.year c.month →
          (c.month < 12 → cal t { c with sec := 0, min := 0, hour := 0, day := 1, month := c.month + 1, wday := if c.wday = 7 then 1 else c.wday + 1 }.words) ∧
          (c.month = 12 → cal t { c with sec := 0, min := 0, hour := 0, day := 1, month := 1, year := (c.year + 1) % 100, wday := if c.wday = 7 then 1 else c.wday + 1 }.words)) ∧
        let u := putCal { s with aon := { s.aon with tickFrac := 0, calJump := false } } (calWords t)
        (alarmMatches s (calWords t) = false → s.aon.calJump = false → t = u) ∧ (alarmMatches s (calWords t) = true ∨ s.aon.calJump = true → t = wakeEvent u 2)) ∧
    (monthDays c.year 2 = (if c.year % 4 = 0 then 29 else 28) ∧ (∀ x ∈ [4, 6, 9, 11], monthDays c.year x = 30) ∧ ∀ x ∈ [1, 3, 5, 7, 8, 10, 12], monthDays c.year x = 31) ∧
    (let field (i : Nat) (hi : Bool) : Nat := let v := (s.regW (Reg.AON_ALARM + i)).toNat; if hi then v / 256 else v % 256
     alarmMatches s ws = true ↔ (s.regW (Reg.AON_ALARM + 3)).getLsbD 15 = true ∧
      (∀ i < 3, (field i false = 0xFF ∨ field i false = ws.getD i 0 % 256) ∧ (field i true = 0xFF ∨ field i true = ws.getD i 0 / 256)) ∧
      (field 3 false % 8 = 0 ∨ field 3 false % 8 = ws.getD 3 0 % 8)) ∧
    (calOf w0.toNat w1.toNat w2.toNat w3.toNat = some c → ∃ t, exec (.calendarWrite w0 w1 w2 w3) s = .next t ∧ cal t c.words ∧ t.aon.tickFrac = 0 ∧ t.mem = s.mem ∧
      ∀ e ∈ t.regs.held, e.1 < Reg.AON_CAL ∨ Reg.AON_CAL + 4 ≤ e.1) ∧
    (calOf w0.toNat w1.toNat w2.toNat w3.toNat = none →
      exec (.calendarWrite w0 w1 w2 w3) s = .next (logEv
        ({ s with regs := { s.regs with held := s.regs.held.filter fun e => e.1 < Reg.AON_CAL || Reg.AON_CAL + 4 ≤ e.1 } }.regSetF Reg.AON_STAT 12 12 1) 0x6031 .note 9)) ∧
    (s.aon.xtalF = false → exec (.crystalCheck false) s = .next (logEv { s with aon := { s.aon with xtalF := true } } 0x6030 .action 9)) ∧
    (exec (.crystalCheck true) s = .next { s with aon := { s.aon with xtalF := false } }) ∧
    (s.regF Reg.AON_KEYCFG 7 4 ≠ 0 → (∀ j : Fin 64, j ≠ k → m.getLsbD j.val = bitN down j.val) → m.getLsbD k.val ≠ bitN down k.val →
      (m.getLsbD k.val ≠ s.aon.prevScan.getLsbD k.val →
        exec (.keyScan m) s = .next { s with aon := { s.aon with scanNo := s.aon.scanNo + 1, prevScan := m } }) ∧
      (m.getLsbD k.val = s.aon.prevScan.getLsbD k.val → s.aon.fifo.length < 16 →
        ∃ t, exec (.keyScan m) s = .next t ∧ bitN (t.reg Reg.AON_KEYS 4) k.val = m.getLsbD k.val ∧
          t.aon.fifo = s.aon.fifo ++ [wd (32768 + 16384 * b2n (m.getLsbD k.val) + 256 * k.val + (s.aon.scanNo + 1).toNat)] ∧ t.mem = s.mem)) ∧
    (bitsN (s.reg Reg.AON_AINCFG) 3 0 = 0xF →
      ∃ t, exec (.analogSample a0 a1 a2 a3) s = .next t ∧ t.reg Reg.AON_AIN = a0.toNat ∧ t.reg (Reg.AON_AIN + 1) = a1.toNat ∧ t.reg (Reg.AON_AIN + 2) = a2.toNat ∧
        t.reg (Reg.AON_AIN + 3) = a3.toNat ∧ t.mem = s.mem ∧ t.cores = s.cores) ∧
    (bitsN (s.reg Reg.AON_AINCFG) 3 0 = 2 ^ j.val → s.aon.ainBad.length = 4 → s.aon.ainRaised.length = 4 →
      let code := ([a0, a1, a2, a3].getD j.val 0).toNat
      let u := s.regSet (Reg.AON_AIN + j.val) code
      let outside := code < s.regF (Reg.AON_AINLO + 2 * j.val) 9 0 ∨ s.regF (Reg.AON_AINHI + 2 * j.val) 9 0 < code
      let sampled (t : State) : Prop := exec (.analogSample a0 a1 a2 a3) s = .next t
      (¬ outside → sampled { u with aon := { u.aon with ainBad := u.aon.ainBad.set j.val 0, ainRaised := u.aon.ainRaised.set j.val false } }) ∧
      (outside → s.aon.ainBad.getD j.val 0 = 0 → sampled { u with aon := { u.aon with ainBad := u.aon.ainBad.set j.val 1 } }) ∧
      (outside → s.aon.ainBad.getD j.val 0 = 1 →
        (s.aon.ainRaised.getD j.val false = false → sampled (wakeEvent { u with aon := { u.aon with ainBad := u.aon.ainBad.set j.val 2, ainRaised := u.aon.ainRaised.set j.val true } } 6)) ∧
        (s.aon.ainRaised.getD j.val false = true → sampled { u with aon := { u.aon with ainBad := u.aon.ainBad.set j.val 2 } })))

/-- R356 to R359, R347: the thermal readings stand in their registers, with TMAX the highest of the die and the HBM; from 95 °C the machine throttles, from 108 °C it stops in order, from 115 °C at once. HRATE of R359, the end of an orderly stop, the start after cooling, and the clocks that stop when nothing asks for them. R347, R388, R400, R453, R466, R51: VSTBY that becomes valid leaves the device in OFF, until WM01, with its start due, the straps sampled, AOC SRAM and the main-domain memories empty and the state store as it was; VSTBY removed leaves it in OFF, with the state store alone. -/
def Obligations.ThermalAndStandbyPowerFollowChapter12 : Prop :=
  (∀ (s : State) (temps : List Word) (h0 h1 rt : Word),
    let p := s.power
    let tmax := (temps ++ [h0, h1]).foldl (fun a w => if a.slt w then w else a) h0
    wmapWf regReset s.regs.val = true →
    (temps.length = 24 → s.boot.mainOn = true → p.vinf = false → p.vinStep = 0 → p.hard = false → p.tripped = false →
      (∃ t, exec (.thermalSample temps h0 h1 rt) s = .next t ∧ t.reg Reg.PM_TMAX = tmax.toNat ∧ (∀ i < 24, some (t.regW (Reg.PM_TEMP + i)) = temps[i]?) ∧
        t.reg Reg.PM_HBMT = h0.toNat ∧ t.reg (Reg.PM_HBMT + 1) = h1.toNat ∧ t.reg Reg.RL_TEMP = rt.toNat ∧ t.mem = s.mem ∧ t.cores = s.cores ∧
        (t.power.throttle = (if 95 * 16 ≤ tmax.toInt then true else if tmax.toInt < 92 * 16 then false else p.throttle)) ∧
        (tmax.toInt < 108 * 16 → t.power.tripped = false ∧ t.power.stopping = p.stopping ∧ t.courses = s.courses) ∧
        (108 * 16 ≤ tmax.toInt → tmax.toInt < 115 * 16 → t.power.stopping = true ∧ t.power.tripped = true ∧ t.power.inTrans = false ∧ t.disp.noSpans = true ∧
          t.disp.stopped = s.disp.stopped) ∧
        (115 * 16 ≤ tmax.toInt → t.power.tripped = true ∧ t.power.hard = true ∧ t.power.stopping = false ∧ t.power.vinStep = 1 ∧ t.disp.stopped = true))) ∧
    (p.throttle = true → ∃ t, exec .heatRateUpdate s = .next t ∧ t.reg Reg.PM_HRATE = 0 ∧ t.mem = s.mem) ∧
    (p.throttle = false →
      ∃ t, exec .heatRateUpdate s = .next t ∧ t.mem = s.mem ∧ ∃ h : Int, (t.reg Reg.PM_HRATE : Int) = min (min (max h 0) 120) (capWatts s) ∧
        let x : Int := (s.regF Reg.PM_THERM 7 0 : Nat) * (16 * (s.regF Reg.PM_THERM 15 8 : Nat) - (BitVec.ofNat 16 (s.reg Reg.PM_TMAX)).toInt)
        16 * (h - (s.regF Reg.PM_HBASE 6 0 : Nat)) ≤ x ∧ x < 16 * (h - (s.regF Reg.PM_HBASE 6 0 : Nat)) + 16) ∧
    (p.stopping = true → p.vinStep = 0 → p.vinf = false → ∃ t, exec .orderlyStopDeadline s = .next t ∧ t.power.vinStep = 1 ∧ t.disp.stopped = true ∧
      (∀ co : CourseId, (s.course co.val).rail = .up → (t.course co.val).rail = .falling) ∧ t.mem = s.mem) ∧
    (p.coolWait = true → s.boot.inReset = false → p.hotTries < tripTries s →
      exec .coolDownExpiry s = .next { s with power := { p with coolWait := false }, boot := { s.boot with cause := 9, inReset := true } }) ∧
    (p.st = .idle → (s.ve.builds.all (·.isNone) = true → s.ve.buildQ = [] → exec (.clockIdleStop 0) s = .next { s with power := { p with clkWf := false } }) ∧
      (s.memc.ssq = [] → exec (.clockIdleStop 1) s = .next { s with power := { p with clkXspi := false } })) ∧
    ((s.core 17).waiting = true → exec (.clockIdleStop 2) s = .next { s with power := { p with clkBurst := false } })) ∧
  (∀ (s : State) (straps : BitVec 2), wmapWf (fun _ => 0) s.mem = true →
    (s.boot.vstby = false ∨ s.boot.starts = 0 → ∃ t, exec (.vstbyValid straps) s = .next t ∧ t.power.st = .off ∧ t.boot.vstby = true ∧ t.boot.cause = 1 ∧ t.side.strap = straps ∧ t.aon.tick = 0 ∧ t.boot.mainOn = false ∧
      t.boot.inReset = true ∧ t.regs = ⟨[], [], [], []⟩ ∧
      (∀ a, a < 0x804000000 ∨ (0x900000000 ≤ a ∧ a < 0x900FF8000) → memGet t a = 0) ∧ ∀ a, 0xA00000000 ≤ a → memGet t a = memGet s a) ∧
    (∃ t, exec .vstbyRemoved s = .next t ∧ t.power.st = .off ∧ t.boot.vstby = false ∧ t.boot.inReset = false ∧ (∀ c : CoreId, (t.core c.val).running = false) ∧ t.regs = ⟨[], [], [], []⟩ ∧
      (∀ a, a < 0x804000000 ∨ (0x900000000 ≤ a ∧ a < 0x900FF8000) → memGet t a = 0) ∧ ∀ a, 0xA00000000 ≤ a → memGet t a = memGet s a))

/-! The host interface (Chapter 13) -/

/-- R370, R371, R375, R386: doorbells. A tail in range makes entries available and a head in range releases completions, each with cause 0x14; one out of range is a ring error. EN = 1 with a valid configuration starts the ring with every index at 0, one with an invalid configuration is a ring error, and one while commands are outstanding is rejected; EN = 0 stops the taking. A coalesced vector is signalled at its time. Any doorbell returns the device from IDLE to RUN (R345). That an SQ tail doorbell of a ring with EN = 0 or with an error leaves the ring as it is is the model's reading (log entry 23). -/
def Obligations.DoorbellsAndEnablesFollowR370 : Prop :=
  ∀ (s : State) (r : RingId) (v : BitVec 12),
    let h := hostAccess s
    let g := h.ring r.val
    let reg (k : Nat) : Nat := k + 32 * r.val
    let sqb := h.reg (reg Reg.HIF_SQ_BASE) 4
    let cqb := h.reg (reg Reg.HIF_CQ_BASE) 4
    let sqn := h.regF (reg Reg.HIF_SQ_SIZE) 12 0
    let cqn := h.regF (reg Reg.HIF_CQ_SIZE) 12 0
    let freed := (v.toNat + g.cqSize - g.cqHead) % g.cqSize
    s.boot.mainOn = true → r.val < s.hif.rings.length →
    (g.en = true → g.err = false →
      (v.toNat < g.sqSize → ∃ t, exec (.sqTailDoorbell r v) s = .next t ∧ (t.ring r.val).sqTail = v.toNat ∧ (t.ring r.val).sqHead = g.sqHead ∧ (t.ring r.val).err = false ∧
        t.mem = h.mem ∧ t.disp = h.disp ∧ ∃ k l, t.intq = h.intq ++ k ++ ⟨liveRole h (h.classRole 0x14), 0x14, wd r.val, 0⟩ :: l ∧ (h.power.st ≠ .idle → k = [])) ∧
      (g.sqSize ≤ v.toNat → ∃ t, exec (.sqTailDoorbell r v) s = .next t ∧ (t.ring r.val).err = true ∧ (t.ring r.val).errCode = 1 ∧ (t.ring r.val).sqTail = g.sqTail ∧ t.mem = h.mem) ∧
      (v.toNat < g.cqSize → freed ≤ g.unrel → ∃ t, exec (.cqHeadDoorbell r v) s = .next t ∧ (t.ring r.val).cqHead = v.toNat ∧ (t.ring r.val).unrel = g.unrel - freed ∧
        (t.ring r.val).err = false ∧ t.mem = h.mem ∧ ∃ k l, t.intq = h.intq ++ k ++ ⟨liveRole h (h.classRole 0x14), 0x14, wd (16 + r.val), 0⟩ :: l ∧ (h.power.st ≠ .idle → k = [])) ∧
      (g.cqSize ≤ v.toNat ∨ g.unrel < freed → ∃ t, exec (.cqHeadDoorbell r v) s = .next t ∧ (t.ring r.val).err = true ∧ (t.ring r.val).errCode = 2 ∧ t.mem = h.mem)) ∧
    (g.en = false ∨ g.err = true → ∃ t, exec (.sqTailDoorbell r v) s = .next t ∧ t.ring r.val = g ∧ t.mem = h.mem ∧ t.disp = h.disp) ∧
    (h.power.st = .idle → (∃ t, exec (.sqTailDoorbell r v) s = .next t ∧ t.power.st = .run) ∧ ∃ t, exec (.cqHeadDoorbell r v) s = .next t ∧ t.power.st = .run) ∧
    (g.out ≠ 0 → exec (.ringEnable r) s = .next (rejectChange h 1)) ∧
    (g.out = 0 → sqb % 64 = 0 → cqb % 64 = 0 → 2 ≤ sqn → sqn ≤ 4096 → 2 ≤ cqn → cqn ≤ 4096 →
      ∃ t, exec (.ringEnable r) s = .next t ∧ t.mem = h.mem ∧ t.disp = h.disp ∧ t.ring r.val = { g with en := true, sqBase := BitVec.ofNat 64 sqb, cqBase := BitVec.ofNat 64 cqb, sqSize := sqn, cqSize := cqn, sqHead := 0, sqTail := 0, cqHead := 0, cqTail := 0, phase := true, unrel := 0, err := false, errCode := 0, unsig := 0, bells := [] }) ∧
    (g.out = 0 → sqb % 64 ≠ 0 ∨ cqb % 64 ≠ 0 ∨ sqn < 2 ∨ 4096 < sqn ∨ cqn < 2 ∨ 4096 < cqn →
      ∃ t, exec (.ringEnable r) s = .next t ∧ (t.ring r.val).en = false ∧ (t.ring r.val).err = true ∧ (t.ring r.val).errCode = 3 ∧ t.mem = h.mem) ∧
    (exec (.ringDisable r) s = .next (h.updRing r.val fun x => { x with en := false })) ∧
    (s.regF (reg Reg.HIF_CQ_IRQ) 15 15 = 1 → s.regF (reg Reg.HIF_CQ_IRQ) 3 0 ≠ 0 → (s.ring r.val).unsig ≠ 0 → exec (.cqCoalesceTimer r) s = .next (signalRing s r.val))

/-- R372, R376, R373, R445, R371: an entry that passes the first two checks is taken as it stands, and counts as accepted; one that fails a check is answered at once with that check's status; a fetch that fails is a ring error. Its completion, at the CQ tail, carries the ring, the CID, the status, the phase, SQ head and RESULT, and counts. R364, R403, R445: a reset of PCIe disables every ring, loses the completions of the commands taken, which are counted, and stops the host transfers; HIF_RINGn_PERM is reset and HIF_BADWR stays; but for a loss of the link, the MSI-X vectors are masked again and the configuration space is reset (the reset values are the model's, log entry 51); but for a function-level reset, the link goes down. That FLR keeps the link, that PERST# acts as a hot reset, and that a loss of the link alone keeps the configuration space and the MSI-X table, is the model's (log entry 22). The link that has trained, at a speed and width of Table 13.1, stands in HIF_LINK; that PCIE_LINK_UP with a speed or a width that Table 13.1 does not name changes nothing is the model's choice (log entries 22 and 2). -/
def Obligations.EntriesAreTakenAndPcieResetsLoseThem : Prop :=
  (∀ (s : State) (r : RingId) (e : List Byte) (t0 : Taken) (st : Status) (detail : Nat),
    let g := s.ring r.val
    let q := Reg.HIF_CQ_IRQ + 32 * r.val
    r.val < s.hif.rings.length →
    (canTake s r.val = true → e.length = 64 →
      (takeCheck s r.val e = none → ∃ t x, exec (.submissionEntryTake r (some e)) s = .next t ∧ (t.ring r.val).taken = g.taken ++ [x] ∧ x.body = e ∧ x.cid = wd (fieldBytes e 2 2) ∧
        x.op.toNat = byteAt e 0 ∧ x.cls = bitsN (byteAt e 1) 3 2 ∧ x.started = false ∧ x.seq = g.nextSeq ∧ (t.ring r.val).acc = g.acc + 1 ∧
        (t.ring r.val).sqHead = (if g.sqHead + 1 ≥ g.sqSize then 0 else g.sqHead + 1) ∧ t.mem = s.mem ∧ t.disp = s.disp) ∧
      (takeCheck s r.val e = some (st, detail) → (∀ x ∈ g.taken, x.seq < g.nextSeq) →
        ∃ t, exec (.submissionEntryTake r (some e)) s = .next t ∧ (t.ring r.val).taken = g.taken ∧ (t.ring r.val).acc = g.acc + 1 ∧ (t.ring r.val).cpl = g.cpl + 1 ∧
          (t.hif.lastCpl.map fun c => (c.ring, c.cid, c.status)) = some (r, wd (fieldBytes e 2 2), BitVec.ofNat 8 st.code) ∧ t.mem = s.mem ∧ t.disp = s.disp)) ∧
    (canTake s r.val = true → exec (.submissionEntryTake r none) s = .next (ringError s r.val 4)) ∧
    (s.startable r t0.cid 0x01 = some t0 → g.taken.find? (fun x => x.seq == t0.seq) = some t0 → t0.lostC = false → g.auditOk = true → s.regF q 15 15 = 0 →
      ∃ t c, exec (.nopCommand r t0.cid) s = .next t ∧ t.hif.lastCpl = some c ∧ c = ⟨r, t0.cid, 0, g.phase, BitVec.ofNat 16 g.sqHead, 0, 0, s.time.setWidth 32⟩ ∧
        (t.ring r.val).taken = g.taken.eraseP (fun x => x.seq == t0.seq) ∧ (t.ring r.val).cpl = g.cpl + 1 ∧ (t.ring r.val).unrel = g.unrel + 1 ∧
        (t.ring r.val).cqTail = (if g.cqSize ≤ g.cqTail + 1 then 0 else g.cqTail + 1) ∧ (t.ring r.val).phase = (if g.cqSize ≤ g.cqTail + 1 then !g.phase else g.phase) ∧
        t.hostMem = (hostWrite s (g.cqBase.toNat + 16 * g.cqTail) (completionBytes r.val c)).hostMem ∧ t.mem = s.mem ∧ t.disp = s.disp) ∧
    (s.startable r t0.cid 0x02 = some t0 → exec (.fence r t0.cid) s = .next (postCompletion s (r, t0.seq) .ok))) ∧
  (∀ (s : State) (r : RingId) (kind : PcieResetKind) (speed : BitVec 3) (width : BitVec 4),
    let g := s.ring r.val
    s.boot.mainOn = true → r.val < s.hif.rings.length → wmapWf regReset s.regs.val = true →
    (∃ t, exec (.pcieReset kind) s = .next t ∧ (t.ring r.val).en = false ∧ (t.ring r.val).out = 0 ∧ (t.ring r.val).lost = g.lost + BitVec.ofNat 32 g.out ∧
      (t.ring r.val).acc = g.acc ∧ (t.ring r.val).cpl = g.cpl ∧ t.hif.dma = [] ∧ t.regW (Reg.HIF_RING_PERM + 32 * r.val) = regReset (Reg.HIF_RING_PERM + 32 * r.val) ∧ t.regW Reg.HIF_BADWR = s.regW Reg.HIF_BADWR ∧
      t.hif.msix = (if kind = .linkLoss then s.hif.msix else State.reset.hif.msix) ∧ t.hif.cfg = (if kind = .linkLoss then s.hif.cfg else PcieCfg.reset) ∧ t.hif.linkUp = (if kind = .flr then s.hif.linkUp else false) ∧
      t.mem = s.mem ∧ t.disp = s.disp ∧ t.cores = s.cores) ∧
    (1 ≤ speed.toNat → speed.toNat ≤ 4 → width = 1 ∨ width = 2 ∨ width = 4 ∨ width = 8 →
      exec (.pcieLinkUp speed width) s = .next { s with hif := { s.hif with linkUp := true, speed := speed, width := width, aspm := 0 } }) ∧
    (speed = 0 ∨ 4 < speed.toNat ∨ (width ≠ 1 ∧ width ≠ 2 ∧ width ≠ 4 ∧ width ≠ 8) → exec (.pcieLinkUp speed width) s = .next s))

/-- R377, R378, R385, R440: LOAD and STORE. A body out of range ends with BAD_COMMAND and DETAIL 0x05, a device range out of place with BAD_REGION; else the transfer's chunks wait for a mover, 4 KB at most each. A chunk of a LOAD that arrives is written to memory, one of a STORE to the host, and the last one completes the command with the bytes moved; unreadable data ends a STORE with BAD_REGION after the bytes before it, and a host-memory error a transfer with BAD_COMMAND, DETAIL 0x07 and the bytes of whole rows moved. In DOZE a chunk waits. -/
def Obligations.LoadsAndStoresMoveTheirRows : Prop :=
  ∀ (s : State) (r : RingId) (cid : Word) (tk : Taken) (m : Fin 8) (d : Dma) (data : List Byte) (ha da n : Nat) (rest : List (Nat × Nat × Nat)),
    let h : HostRef := (r, tk.seq)
    let chunks := (List.range (tk.field 20 4)).flatMap fun i => rowChunks (tk.field 8 8 + i * tk.field 24 4) (tk.field 32 8 + i * tk.field 40 4) (tk.field 16 4)
    let starts (i : Instr) (load : Bool) : Prop :=
      (xferBodyOk tk = false → exec i s = .next (postCompletion s h .badCommand 5)) ∧
      (xferBodyOk tk = true → xferRangeOk s tk load = false → exec i s = .next (postCompletion s h .badRegion)) ∧
      (xferBodyOk tk = true → xferRangeOk s tk load = true → ∃ t, exec i s = .next t ∧ t.hif.dma = s.hif.dma ++ [⟨h, load, tk.cls, chunks, 0⟩] ∧ t.mem = s.mem ∧ t.hostMem = s.hostMem ∧ t.disp = s.disp)
    let cut (u : State) : State := { u with hif := { u.hif with dma := [] } }
    let freed (u : State) : State := { u with hif := { u.hif with movers := u.hif.movers.set m.val none } }
    let src : State := if storeRange s da (n / 2) && !mainRange s da (n / 2) then s.useXspi else s
    let moved (t : State) : Prop := if rest = [] then t.hif.dma = [] else t.hif.dma = [{ d with chunks := rest, moved := d.moved + n }]
    (s.startable r cid 0x10 = some tk → starts (.load r cid) true) ∧ (s.startable r cid 0x11 = some tk → starts (.store r cid) false) ∧
    (dozing s = false → s.hif.movers.length = 8 → s.hif.movers.getD m.val none = none → (∀ x ∈ s.hif.movers, x ≠ some d.host) → s.hif.dma = [d] → d.chunks = (ha, da, n) :: rest →
      (d.toDev = true → n ≤ data.length → n % 2 = 0 → mainRange s da (n / 2) = true → wmapWf (fun _ => 0) s.mem = true →
        ∃ t, exec (.dmaChunkDone m false data) s = .next t ∧ moved t ∧ (∀ i < n / 2, some (memGet t (da + i)) = (wordsOfBytes (data.take n))[i]?) ∧
          ∀ a, (a < da ∨ da + n / 2 ≤ a) → memGet t a = memGet s a) ∧
      (d.toDev = true → n ≤ data.length → rest = [] → mainRange s da (n / 2) = true →
        exec (.dmaChunkDone m false data) s = .next (freed (postCompletion (cut (memWrites s da (wordsOfBytes (data.take n)))) d.host .ok 0 (d.moved + n)))) ∧
      (d.toDev = false → storeServes s da (n / 2) = true → poisonIn s da (n / 2) = none → rest ≠ [] →
        ∃ t, exec (.dmaChunkDone m false data) s = .next t ∧ moved t ∧ t.mem = s.mem ∧ t.hostMem = (hostWrite s ha (bytesOfWords (memReads s da (n / 2)))).hostMem) ∧
      (d.toDev = false → storeServes s da (n / 2) = true → poisonIn s da (n / 2) = none → rest = [] →
        exec (.dmaChunkDone m false data) s = .next (freed (postCompletion (cut (hostWrite src ha (bytesOfWords (memReads s da (n / 2))))) d.host .ok 0 (d.moved + n)))) ∧
      (d.toDev = false → storeServes s da (n / 2) = true → ∀ a, poisonIn s da (n / 2) = some a →
        exec (.dmaChunkDone m false data) s = .next (freed (postCompletion (cut (logEv (hostWrite src ha (bytesOfWords (memReads s da (a - da)))) 0x1002 .action 5)) d.host .badRegion 0 (d.moved + 2 * (a - da))))) ∧
      exec (.dmaChunkDone m true data) s = .next (freed (hostMemError (cut s) d.host (wholeRows s d)))) ∧
    (dozing s = false → s.hif.dma = [] → exec (.dmaChunkDone m false data) s = .next (freed s)) ∧
    (dozing s = true → exec (.dmaChunkDone m false data) s = .next s)

/-- R379, R382, R384, R26: RENDER whose fields, rectangle and sources pass writes the target of every pixel on a slate and completes with their number; VECTOR, and its retry, pushes its last command on the queue that HIF_RINGn_PERM named when its entry was taken (Table 15.9); QUERY returns whole records and LIFE the counters, each with the bytes written as RESULT, or up to a record that cannot be read, with BAD_REGION (R440; where those records stand is log entry 58), once a mover is free (the row as the end of the last chunk is log entry 52); their transfers return the device from IDLE to RUN (R345). That a host VECTOR pushes with the rights of ring 2 and as role 0, and that LIFE returns up to LEN bytes, is the model's reading (log entry 24). -/
def Obligations.RenderVectorQueryAndLifeFollowChapter13 : Prop :=
  ∀ (s : State) (r : RingId) (cid : Word) (tk : Taken) (n : Nat) (recs : List (List Byte)) (sl : Slate),
    let h : HostRef := (r, tk.seq)
    let x := renderArgs tk
    let p := tk.field 20 1
    let q := tk.queue
    let answer (bs : List Byte) : State := postCompletion (hostWrite (leaveIdle s) (tk.field 8 8) bs) h .ok 0 bs.length
    (s.startable r cid 0x20 = some tk →
      (x.fieldsOk = false → exec (.render r cid) s = .next (postCompletion s h .badCommand 5)) ∧
      (x.fieldsOk = true → admitCheck s x.rect none = none → (x.ranges s).all (fun e => renderRangeOk s e && (poisonIn s e.1 e.2).isNone) = true →
        exec (.render r cid) s = .next (postCompletion ((renderTargets s x).foldl writeTarget (leaveIdle s)) h .ok 0 (renderTargets s x).length))) ∧
    (s.startable r cid 0x50 = some tk → r.val < s.hif.rings.length → (s.ring r.val).taken.Pairwise (fun a b => a.seq ≠ b.seq) → tk.field 16 2 = 1 → tk.field 8 8 % 16 = 0 → s.power.st = .run →
      q < s.ve.queues.length → pushOutcome s q 2 (tk.field 8 8) = .accepted →
        ∃ t, exec (.vector r cid) s = .next t ∧ (t.queue q).waiting = (s.queue q).waiting ++ [⟨BitVec.ofNat 36 (tk.field 8 8), 0, some h⟩] ∧ t.mem = s.mem ∧ t.disp = s.disp) ∧
    (s.startable r cid 0x50 = some tk → tk.field 16 2 = 0 ∨ 256 < tk.field 16 2 → exec (.vector r cid) s = .next (postCompletion s h .badCommand 5)) ∧
    ((s.ring r.val).taken.find? (fun t => t.cid == cid && t.op == 0x50 && t.started && t.pushLeft != 0) = some tk → (s.ring r.val).taken.Pairwise (fun a b => a.seq ≠ b.seq) → tk.pushLeft = 1 →
      r.val < s.hif.rings.length → q < s.ve.queues.length → s.power.st = .run → pushOutcome s q 2 (tk.field 8 8 + 16 * (tk.field 16 2 - 1)) = .accepted →
        ∃ t, exec (.vectorPushRetry r cid) s = .next t ∧ (t.queue q).waiting = (s.queue q).waiting ++ [⟨BitVec.ofNat 36 (tk.field 8 8 + 16 * (tk.field 16 2 - 1)), 0, some h⟩] ∧
          t.mem = s.mem ∧ t.disp = s.disp) ∧
    (s.startable r cid 0x70 = some tk → transferWaits s = false → queryItem s p (tk.field 24 4) = some (n, recs) →
      let bad := unreadable s ((queryPlaces s p (tk.field 24 4)).take (tk.field 16 4 / n)) n
      let bs := (recs.take (tk.field 16 4 / n)).flatMap id
      (bad = none → exec (.query r cid false) s = .next (answer bs)) ∧
      ∀ i, bad = some i → exec (.query r cid false) s = .next (postCompletion (hostWrite (logEv (leaveIdle s) 0x1002 .action 5) (tk.field 8 8) (bs.take i)) h .badRegion 0 i)) ∧
    (s.startable r cid 0x70 = some tk → transferWaits s = true → (queryItem s p (tk.field 24 4)).isSome = true → exec (.query r cid false) s = .next s) ∧
    (s.startable r cid 0x70 = some tk → queryItem s p (tk.field 24 4) = none → exec (.query r cid false) s = .next (postCompletion s h .badCommand 5)) ∧
    ((s.ring r.val).taken.find? (fun t => t.cid == cid && t.op == 0x71 && t.started) = none → s.startable r cid 0x71 = some tk → tk.field 21 1 = 0 →
      (s.port p).slate = some sl → slateThere s p = true → transferWaits s = false → exec (.life r cid false) s = .next (answer ((lifeNow sl).take (tk.field 16 4))))

/-- R141, R381: MODE_LOAD gives every named slate the mode, or none, with the reason as DETAIL; OVERLAY_SET replaces the overlay of a slate, and raises its version. R415 to R418, Table 15.9: PLAN_STAGE stages a plan that passes its checks; PLAN_SWAP waits for its swap point, or is refused with its code; the swap point makes the staged plan the plan in effect; with PERSIST it waits until the plan's copy is durable, and a lost channel refuses the swap (the model's choice: log entry 32). A transfer of host data waits for a mover (log entry 52) and returns the device from IDLE to RUN (R345). That a mode which one named slate refuses is taken by none is the model's reading (log entry 31), and so is that the staged plan stays staged after its swap (log entry 32). -/
def Obligations.ModesOverlaysAndPlansTakeEffect : Prop :=
  ∀ (s : State) (r : RingId) (cid : Word) (tk : Taken) (data : List Byte) (new : List Word) (w : HostRef) (sl : Slate) (pf : Nat × LoadFault),
    let h : HostRef := (r, tk.seq)
    let bs := data.take (tk.field 16 4)
    let p := tk.field 20 1
    let u := leaveIdle s
    let c := checkPlan (stageWords u (wordsOfBytes bs)) (wordsOfBytes bs)
    (s.startable r cid 0x40 = some tk → transferWaits s = false → tk.field 16 4 ≤ data.length → 4 ≤ p → p ≤ 13 →
      ((portsNamed tk).all (slateThere s) = false → exec (.modeLoad r cid false data) s = .next (postCompletion s h .noSlate)) ∧
      ((portsNamed tk).all (slateThere s) = true →
        (modeRefused u p (wordsOfBytes bs) (portsNamed tk) = some pf → exec (.modeLoad r cid false data) s = .next (postCompletion (loadFailed u pf.1 pf.2) h .badCommand (0x10 + pf.2.code))) ∧
        (modeRefused u p (wordsOfBytes bs) (portsNamed tk) = none →
          exec (.modeLoad r cid false data) s = .next (postCompletion (writeLayer ((portsNamed tk).foldl (takeMode p (wordsOfBytes bs)) u)) h .ok 0 (portsNamed tk).length)))) ∧
    (s.startable r cid 0x41 = some tk → bitN (tk.field 21 1) 0 = false →
      (slateThere s p = false → exec (.overlaySet r cid false data) s = .next (postCompletion s h .noSlate)) ∧
      (slateThere s p = true → transferWaits s = false → (s.port p).slate = some sl → tk.field 16 4 = sl.width * sl.height / 2 → tk.field 16 4 ≤ data.length → p < s.boot.layers.length →
        ∃ t, exec (.overlaySet r cid false data) s = .next t ∧ (t.port p).slate = some { sl with overlay := bs } ∧
          (t.boot.layers.getD p Layer.empty).overlay = some bs ∧ (t.boot.layers.getD p Layer.empty).ver = (ownLayer s p sl.serial).ver + 1)) ∧
    (s.startable r cid 0x80 = some tk → transferWaits s = false → s.boot.swapWait = none → tk.field 16 4 ≤ data.length → tk.field 16 4 ≤ 0x100000 →
      exec (.planStage r cid false data) s = .next (if c.1 = 0 then postCompletion (logEv { c.2 with boot := { c.2.boot with staged := some (wordsOfBytes bs) } } 0xF010 .note 0) h .ok
        else postCompletion { c.2 with boot := { c.2.boot with staged := none } } h .badCommand 0x20 c.1)) ∧
    (s.startable r cid 0x81 = some tk → s.boot.swapWait = none →
      (swapCheck s (bitN (tk.field 8 1) 0) ≠ 0 → exec (.planSwap r cid) s = .next (let k := swapCheck s (bitN (tk.field 8 1) 0); postCompletion (logEv s 0xF012 .note 0 0xFF [k]) h .badCommand 0x20 k)) ∧
      (bitN (tk.field 8 1) 0 = false → swapCheck s false = 0 → s.boot.outcome ≠ .safePlan →
        ∃ t, exec (.planSwap r cid) s = .next t ∧ t.boot = { s.boot with swapWait := some (false, h) } ∧ t.mem = s.mem ∧ t.disp = s.disp)) ∧
    (s.boot.staged = some new → s.boot.swapWait = some (true, w) → dozing s = false →
      (s.memc.ssLost = false → ssWaits s 5 2 = true → exec .swapPoint s = .next s) ∧
      (s.memc.ssLost = true → exec .swapPoint s =
        .next (postCompletion (logEv { s with boot := { s.boot with swapWait := none } } 0xF012 .note 0 0xFF [0x14]) w .badCommand 0x20 0x14))) ∧
    (s.boot.swapWait = some (false, w) → s.boot.staged = some new → dozing s = false → s.boot.outcome ≠ .safePlan →
      ∃ t, exec .swapPoint s = .next t ∧ t.boot.plan = new ∧ t.boot.planSrc = 2 ∧ t.boot.swapWait = none ∧ t.boot.staged = some new)

/-! The side lane (Chapter 14) -/

/-- R388, R390, R391: with VSTBY valid, a bad packet, or one over the transmission unit of 64 bytes, is discarded with no answer, and counted where HEALTH shows it; the packets of a message are assembled in order up to 256 bytes, and the last one alone makes it a message; one out of sequence or past 256 bytes discards it whole, and so do a new first packet and the end of its 100 ms. SMBALERT# is released where the alert response is won. That a packet over the transmission unit and a message over 256 bytes are discarded, that a first packet drops an unfinished assembly, and that each discard counts one, also that of a packet without an assembly, is the model's reading (log entry 27). -/
def Obligations.SideLanePacketsFollowR390 : Prop :=
  ∀ (s : State) (src : Byte) (som eom p1 p2 p3 : Bool) (seq : BitVec 2) (tag : BitVec 3) (bytes : List Byte) (x : Reasm) (won : Bool),
    let d (s : State) : State := { s with side := { s.side with discards := if s.side.discards = 0xFF then 0xFF else s.side.discards + 1 } }
    let w (s : State) (b : List Byte) : State := { s with side := { s.side with reasm := (s.side.reasm.filter fun y => !(y.src == src && y.tag == tag)) ++ [⟨src, tag, seq + 1, b⟩] } }
    s.boot.vstby = true →
    ((p1 && p2 && p3) = false ∨ 64 < bytes.length → exec (.smbusPacket src som eom seq tag p1 p2 p3 bytes) s = .next (d s)) ∧
    ((healthBody s).getD 13 0 = s.side.discards) ∧
    (assembly s src tag = none → bytes.length ≤ 64 →
      exec (.smbusPacket src true false seq tag true true true bytes) s = .next (w s bytes) ∧
      exec (.smbusPacket src true true seq tag true true true bytes) s = .next (takeMessage (dropAssembly s src tag) src tag bytes) ∧
      exec (.smbusPacket src false eom seq tag true true true bytes) s = .next (d (dropAssembly s src tag))) ∧
    (assembly s src tag = some x → bytes.length ≤ 64 → x.next = seq → (x.bytes ++ bytes).length ≤ 256 →
      exec (.smbusPacket src false false seq tag true true true bytes) s = .next (w s (x.bytes ++ bytes)) ∧
      exec (.smbusPacket src false true seq tag true true true bytes) s = .next (takeMessage (dropAssembly s src tag) src tag (x.bytes ++ bytes))) ∧
    (assembly s src tag = some x → bytes.length ≤ 64 → exec (.smbusPacket src true false seq tag true true true bytes) s = .next (w (d s) bytes)) ∧
    (assembly s src tag = some x → bytes.length ≤ 64 → x.next ≠ seq ∨ 256 < (x.bytes ++ bytes).length → exec (.smbusPacket src false eom seq tag true true true bytes) s = .next (d (dropAssembly s src tag))) ∧
    (assembly s src tag = some x → exec (.messageReassemblyTimeout src tag) s = .next (d (dropAssembly s src tag))) ∧
    (exec (.alertResponseAddressRead won) s = .next (if won then { s with side := { s.side with alert := false } } else s))

/-- R388, R389: MCTP control, with VSTBY valid. An endpoint ID is set and read back; a message type 0x7E and a vendor ID 0x1FA7 are reported; each response goes in one packet to the endpoint that asked. The layouts of packets and of control responses are the model's (log entry 26). R393: with VSTBY valid, a Kwavis message of one packet is answered BAD_MESSAGE, BAD_LENGTH or BUSY where a check fails, in one packet to the endpoint that sent it (its layout is the model's, log entry 26); else it waits for its row, with the tick of its arrival, and an order among them is noted. -/
def Obligations.EndpointRequestsAndKwavisMessagesAreChecked : Prop :=
  (∀ (s : State) (src eid : Byte) (op : BitVec 2),
    let ends (i : Instr) (cmd : Byte) (data : List Byte) : Prop :=
      ∃ t hd tag, exec i s = .next t ∧ t.side.lastResp = [0, hd, cmd] ++ data ∧ t.side.sent = [packetOf t src tag 1 0 t.side.lastResp] ∧
        t = { s with side := { s.side with lastResp := t.side.lastResp, sent := t.side.sent, eid := t.side.eid }, freeCtr := t.freeCtr }
    s.boot.vstby = true →
    (op.toNat ≤ 1 → eid ≠ 0 → eid ≠ 0xFF → ends (.setEndpointId src op eid) 1 [0, 0, eid, 0] ∧ ∃ t, exec (.setEndpointId src op eid) s = .next t ∧ t.side.eid = eid) ∧
    (1 < op.toNat ∨ eid = 0 ∨ eid = 0xFF → ends (.setEndpointId src op eid) 1 [2]) ∧
    (ends (.getEndpointId src) 2 [0, s.side.eid, 0, 0] ∧ ends (.getEndpointUuid src) 3 (0 :: (List.finRange 16).map Config.endpointUuid) ∧
      ends (.getMessageTypeSupport src) 5 [0, 1, 0x7E] ∧ (∃ v, v.length = 2 ∧ ends (.getVendorDefinedMessageSupport src 0) 6 ([0, 0xFF, 0, 0x1F, 0xA7] ++ v)) ∧
      (∃ u, ends (.getMctpVersionSupport src 0xFF) 4 [0, 1, 0xF1, 0xF3, u, 0]) ∧ ends (.getMctpVersionSupport src 1) 4 [0x80])) ∧
  (∀ (s : State) (src : Byte) (tag : BitVec 3) (q : BitVec 2) (bs : List Byte),
    let code := BitVec.ofNat 8 (byteAt bs 4)
    let inst := BitVec.ofNat 8 (byteAt bs 6)
    let body := bs.drop 7
    let cmd : Instr := .smbusPacket src true true q tag true true true bs
    let u := dropAssembly s src tag
    let answered (st : Byte) : Prop := ∃ t, exec cmd s = .next t ∧ t.side.lastResp = [0x7E, 0x1F, 0xA7, 0x01, code, 0x80, inst, st] ∧ t.side.sent = [packetOf t src tag 1 0 t.side.lastResp] ∧ t.side.msgs = s.side.msgs ∧ t.mem = s.mem ∧ t.disp = s.disp
    let plain : Prop := 7 ≤ bs.length ∧ byteAt bs 3 = 1 ∧ byteAt bs 5 = 0 ∧ code.toNat ∈ kwavisCodes
    s.boot.vstby = true → assembly s src tag = none → bs.length ≤ 64 → bs.take 3 = [0x7E, 0x1F, 0xA7] →
    (¬ plain → answered 2) ∧
    (plain → kwavisLenOk code.toNat body.length = false → answered 3) ∧
    (plain → kwavisLenOk code.toNat body.length = true → s.side.msgs.any (·.src == src) = true → answered 4) ∧
    (plain → kwavisLenOk code.toNat body.length = true → s.side.msgs.any (·.src == src) = false → kwavisFieldsOk code.toNat body = false → answered 2) ∧
    (plain → kwavisLenOk code.toNat body.length = true → s.side.msgs.any (·.src == src) = false → kwavisFieldsOk code.toNat body = true →
      ∃ t, exec cmd s = .next t ∧ t.side.msgs = s.side.msgs ++ [⟨src, code, inst, body, s.aon.tick, tag⟩] ∧ t.side.lastResp = u.side.lastResp ∧ t.mem = s.mem ∧ t.disp = s.disp ∧
        (∀ k v, kwavisOrder ⟨src, code, inst, body, s.aon.tick, tag⟩ = some (k, v) → t.side.orders.getLast? = some (s.aon.tick, false, k, v))))

/-- R394 to R399, R407: the Kwavis messages that wait. HEALTH, EVENTS, WAYMARKS, LIFE, KEYS and SENSORS are answered with their bodies; POWER_SET of the state in effect is OK, one of SLEEP starts it, and one against a lower host order of its tick yields; BLANK, RAILS_OFF and RESET take effect, and a RESET against a host order of its tick yields, while one during a transition is kept (log entry 28); an order waits behind the orders of earlier ticks that it must follow (R398); in RUN FW_STAGE and FW_COMMIT act on the image that is not running, and a LIFE is answered NOT_READY in SLEEP, where it is a wake source, and while the main domain is off or held in reset. -/
def Obligations.KwavisMessagesAreAnsweredByTable144 : Prop :=
  ∀ (s : State) (src : Byte) (m : KMsg),
    let b := m.body
    let live : Prop := s.power.st = .run ∧ s.boot.outcome = .ready ∧ s.boot.mainOn = true
    let set := bitN (byteAt b 0) 0
    let o := powerSetOrder m
    let u := wakeEvent s 1
    let due (l : List Byte) : Prop := earlierSide s m.tick l = false
    let takes : Prop := due [0x13] ∧ hostOrderAt s m.tick [0] (byteAt b 0) = false ∧ overridden s = false ∧ s.power.ordTick.toNat ≤ m.tick.toNat ∧ s.power.inTrans = false ∧ s.boot.inReset = false ∧ s.power.vinStep = 0 ∧ s.power.cur = none ∧ s.power.kept = none
    (s.kmsg src 1 = some m → exec (.health src) s = .next (respond s m .ok (healthBody s))) ∧
    (s.kmsg src 2 = some m → ∃ t, exec (.events src) s = .next t ∧ t.side.alert = false ∧ t.side.lastResp.take 8 = [0x7E, 0x1F, 0xA7, 1, m.code, 0x80, m.inst, 0] ∧
      t.side.lastResp.drop 8 = (let e := eventEntries s (fieldBytes b 0 4); let l := e.1.take (byteAt b 4); bytesOfNat 4 (e.2 + l.length) ++ bytesOfNat 1 l.length ++ l.flatMap bytesOfWords) ∧
      t.mem = s.mem ∧ t.ras = s.ras) ∧
    (s.kmsg src 3 = some m → exec (.waymarks src) s = .next (respond s m .ok ((((wmLog s).drop (1 + byteAt b 0)).take (min 14 (byteAt b 1))).flatMap id))) ∧
    (s.kmsg src 4 = some m → live → exec (.kwavisLife src) s = .next (respond u m .ok
      (let l := ((match (s.port (byteAt b 0)).slate with | some sl => lifeNow sl | none => []).drop (fieldBytes b 1 2)).take 192; bytesOfNat 2 l.length ++ l))) ∧
    (s.kmsg src 4 = some m → s.power.st = .sleep → s.boot.outcome ≠ .safeAon → s.boot.outcome ≠ .safeFw → exec (.kwavisLife src) s = .next (wakeEvent (respond s m .notReady) 1)) ∧
    (s.kmsg src 4 = some m → s.power.st = .run ∨ s.power.st = .idle ∨ s.power.st = .doze → s.boot.mainOn = false → exec (.kwavisLife src) s = .next (respond s m .notReady)) ∧
    (s.kmsg src 0x10 = some m → takes → inEffect s o.target = true → exec (.powerSet src) s = .next (respond (setLastOrd { s with power := { s.power with ordTick := m.tick } } 1) m .ok)) ∧
    (s.kmsg src 0x10 = some m → takes → o.target = .sleep → s.power.st = .run → ∃ t, exec (.powerSet src) s = .next t ∧ t.disp.sleeping = true ∧ t.power.inTrans = true ∧ t.power.cur = some o ∧ t.power.ordTick = m.tick ∧
      t.side.lastOrd = 1 ∧ t.side.lastResp = [0x7E, 0x1F, 0xA7, 1, m.code, 0x80, m.inst, 0]) ∧
    (s.kmsg src 0x10 = some m → due [0x13] → hostOrderAt s m.tick [0] (byteAt b 0) = true → exec (.powerSet src) s = .next (respond (setLastOrd s 4) m .yielded)) ∧
    (s.kmsg src 0x11 = some m → due [0x11] → ∃ t, exec (.blank src) s = .next t ∧ t.side.blank = set ∧ t.side.lastResp = [0x7E, 0x1F, 0xA7, 1, m.code, 0x80, m.inst, 0] ∧ t.mem = s.mem ∧ t.disp = s.disp ∧
      (set = true → s.boot.mainOn = true → ∀ co : CourseId, (t.course co.val).flEn = false)) ∧
    (s.kmsg src 0x12 = some m → due [0x12] → ∃ t, exec (.railsOff src) s = .next t ∧ t.side.lastResp = [0x7E, 0x1F, 0xA7, 1, m.code, 0x80, m.inst, 0] ∧ t.cores = s.cores ∧
      t.side.railsOff = (if bitN (byteAt b 1) 0 then s.side.railsOff ||| BitVec.ofNat 8 (byteAt b 0) else s.side.railsOff &&& ~~~(BitVec.ofNat 8 (byteAt b 0)))) ∧
    (s.kmsg src 0x13 = some m → due [0x10, 0x13] → hostOrderAt s m.tick [0, 1] 256 = true → exec (.kwavisReset src) s = .next (respond s m .yielded)) ∧
    (s.kmsg src 0x13 = some m → due [0x10, 0x13] → hostOrderAt s m.tick [0, 1] 256 = false → s.power.vinf = false → s.power.stopping = false → s.power.tripped = false → s.power.vinStep = 0 → s.power.inTrans = false →
      s.boot.mainOn = true → s.boot.inReset = false → s.side.keptReset = none → ∃ t, exec (.kwavisReset src) s = .next t ∧ t.boot.cause = 3 + byteAt b 0 ∧ t.power.vinStep = 1 ∧ t.disp.stopped = true ∧
        t.side.curReset = some m ∧ t.side.msgs = s.side.msgs ∧ t.mem = s.mem) ∧
    (s.kmsg src 0x13 = some m → due [0x10, 0x13] → hostOrderAt s m.tick [0, 1] 256 = false → overridden s = false → inTransition s = true → s.side.keptReset = none → s.side.curReset ≠ some m →
      ∃ t, exec (.kwavisReset src) s = .next t ∧ t.side.keptReset = some m ∧ t.power.kept = none ∧ t.power.vinStep = s.power.vinStep ∧ t.boot = s.boot ∧ t.side.msgs = s.side.msgs) ∧
    (∀ e ∈ [((0x10 : Byte), [(0x13 : Byte)], Instr.powerSet src), (0x11, [0x11], .blank src), (0x12, [0x12], .railsOff src), (0x13, [0x10, 0x13], .kwavisReset src)],
      s.kmsg src e.1 = some m → ¬ due e.2.1 → exec e.2.2 s = .next s) ∧
    (s.kmsg src 0x20 = some m → live → transferWaits u = false → exec (.fwStage src) s = .next (respond (ssPut (leaveIdle u).useXspi 5 3 (fwBase (!s.boot.fwB) + fieldBytes b 0 4 / 2) (wordsOfBytes (b.drop 4))) m .ok)) ∧
    (s.kmsg src 0x21 = some m → live → exec (.fwCommit src) s = .next (if fwCheck u (!s.boot.fwB) (some (fieldBytes b 0 4))
      then respond (writeDir { u with boot := { u.boot with meth := u.boot.meth.set 5 0 } } false fun ws => clearMem [5] (setFlag 0 (!s.boot.fwB) ws)) m .ok
      else respond (logEv u 0xA001 .action 0) m .checkFailed)) ∧
    (s.kmsg src 0x30 = some m → ∃ t, exec (.keys src) s = .next t ∧ t.aon.fifo = (if set then [] else s.aon.fifo) ∧
      t.side.lastResp = [0x7E, 0x1F, 0xA7, 1, m.code, 0x80, m.inst, 0] ++ bytesOfNat 8 (s.reg Reg.AON_KEYS 4) ++ [BitVec.ofNat 8 s.aon.fifo.length] ++ bytesOfWords s.aon.fifo ∧ t.mem = s.mem) ∧
    (s.kmsg src 0x31 = some m → exec (.sensors src) s = .next (respond s m .ok (sensorsBody s)))

/-! Starts, calibration, security and reliability (Chapters 15 and 16) -/

/-- R401, R402, R400, R406, R425, R451, R453, Table 15.1: RESET_N and SYS_RST stop the machine for a start of their cause; the start of the main domain takes the warm path where R402 holds, clears the waymark log and the time base, and begins its first waymark, in RUN but for the start of cause 1, which stays in OFF until WM01 (R347); SAFE-AON and SAFE-DRIVE try again up to 3 times, with causes 6 and 5 (the model's reading, log entry 43); MAIN_PG, whose fall in reset is a VIN-fail with nothing to stop (log entry 38), and whose fall during the 100 µs of R451 starts them again. -/
def Obligations.StartsFollowTable151 : Prop :=
  ∀ (s : State) (c : CoreId) (cause : Nat),
    let stops (i : Instr) (n : Nat) : Prop := ∃ t, exec i s = .next t ∧ t.boot.cause = n ∧ t.power.vinStep = 1 ∧ t.disp.stopped = true ∧ t.mem = s.mem ∧ t.cores = s.cores
    let calm : Prop := s.boot.mainOn = true ∧ s.boot.inReset = false ∧ s.power.vinStep = 0 ∧ s.power.vinf = false
    (calm → s.boot.resetN = true → s.boot.vstby = true → stops .resetNAsserted 2) ∧
    (exec .resetNReleased s = .next { s with boot := { s.boot with resetN := true } }) ∧
    (coreRuns s c.val = true → (s.core c.val).ring = 0 → calm → stops (.sysRstWarm c) 5 ∧ stops (.sysRstCold c) 6) ∧
    (coreRuns s c.val = true → (s.core c.val).ring ≠ 0 → exec (.sysRstWarm c) s = .next (queueLate s c.val 0xD 0xF00000002) ∧ exec (.sysRstCold c) s = .next (queueLate s c.val 0xD 0xF00000002)) ∧
    (s.boot.inReset = true → s.boot.resetN = true → s.boot.vstby = true → s.power.vinf = false → s.boot.cause = cause → s.boot.recs.length = 23 → wmapWf regReset s.regs.val = true → cause < 16 →
      ∃ t, exec .mainDomainStart s = .next t ∧ t.time = 0 ∧ t.boot.inReset = false ∧ t.boot.warm = warmPath s ∧ t.boot.outcome = .running ∧ t.boot.starts = s.boot.starts + 1 ∧
        t.boot.startTk = s.aon.tick ∧ t.power.st = (if cause = 1 then s.power.st else .run) ∧ t.boot.mainOn = (s.boot.pwrEn && s.boot.mainPg) ∧ t.side.lastOrd = (if s.power.kept.isSome then s.side.lastOrd else 0) ∧ t.boot.logCause = cause ∧ t.power.inTrans = true ∧ t.reg Reg.SYS_RSTCAUSE = cause ∧ t.boot.wm = (if cause = 1 then 0 else 1) ∧
        (∀ n, n < 23 → n ≠ t.boot.wm → t.wmRec n = WmRec.reset) ∧ (t.wmRec t.boot.wm).result = 5 ∧ t.mem = s.mem) ∧
    (3 ≤ s.boot.safeTry → exec .safeRetryTimer s = .next s) ∧
    (s.boot.safeTry < 3 → s.boot.outcome = .safeAon → s.boot.mainOn = false → s.power.vinf = false → exec .safeRetryTimer s =
      .next { s with boot := { s.boot with safeTry := s.boot.safeTry + 1, cause := 6, inReset := true }, power := { s.power with coolWait := false } }) ∧
    (s.boot.safeTry < 3 → s.boot.outcome = .safeDrive → calm → stops .safeRetryTimer 5) ∧
    (s.boot.pwrEn = true → exec .mainPgRise s = .next { s with boot := { s.boot with mainPg := true, mainOn := !s.boot.inReset } }) ∧
    (s.boot.mainPg = true → s.boot.pwrEn = true → s.boot.mainOn = true → s.power.vinf = false → s.power.vinStep = 0 →
      ∃ t, exec .mainPgFall s = .next t ∧ t.boot.mainPg = false ∧ t.power.vinf = true ∧ t.power.vinStep = 1 ∧ t.disp.stopped = true ∧ t.mem = s.mem) ∧
    (s.boot.mainPg = true → s.boot.pwrEn = true → s.boot.mainOn = false → s.power.vinf = false →
      ∃ t, exec .mainPgFall s = .next t ∧ t.boot.mainPg = false ∧ t.power.vinf = true ∧ t.power.vinStep = s.power.vinStep ∧ t.mem = s.mem) ∧
    (s.boot.mainPg = true → s.boot.pwrEn = false → exec .mainPgFall s = .next { s with boot := { s.boot with mainPg := false, hiZ := if s.boot.hiZ = 0 then 0 else 10000 } })

/-- R403 to R406: a waymark that ends well passes, on its later method as such; an attempt that fails is made again within its retries, then by the next method; with no method left, a waymark that may be skipped is skipped, and another leads to its SAFE state; WM19 skips the configured courses that are not UP, and fails where none is. A timeout is a failure. A port ends its WM14 to WM16 for itself, the first once its link is ACTIVE or its time is over; one that fails WM16 runs its second method, and is not driven where that fails too (log entry 42). R347: the end of WM01 leads a device that was OFF to SLEEP, and on to RUN where its plan does not hold it. -/
def Obligations.WaymarksPassRetryAndLeadToSafeStates : Prop :=
  ∀ (s : State) (wm : Fin 23) (p : PortId),
    let n := wm.val
    let r := s.wmRec n
    let down := (coursesSet s).filter fun co => (s.course co).rail != .up
    let fails (i : Instr) : Prop :=
      (wmKind n = .e → s.boot.tries.getD n 1 ≤ wmRetries s n → ∃ t, exec i s = .next t ∧ t.wmRec n = { r with detail := 0, attempts := min 15 (r.attempts + 1) } ∧
        t.boot.tries.getD n 1 = s.boot.tries.getD n 1 + 1 ∧ t.mem = s.mem ∧ t.boot.outcome = s.boot.outcome) ∧
      (wmKind n = .a → n ≠ 16 → r.path + 1 < (wmMethods s n).length → ∃ t, exec i s = .next t ∧ t.wmRec n = { r with detail := 0, attempts := min 15 (r.attempts + 1), path := r.path + 1 } ∧
        t.mem = s.mem ∧ t.boot.outcome = s.boot.outcome) ∧
      (n = 17 → r.path = 0 → ∃ t, exec i s = .next t ∧ t.wmRec n = { r with detail := 0, attempts := min 15 (r.attempts + 1), path := 1 } ∧ t.mem = s.mem ∧ t.boot.outcome = s.boot.outcome) ∧
      (wmKind n = .k → n < 14 ∨ 17 < n → (n = 19 → coursesSet s = []) → ∃ t, exec i s = .next t ∧ (t.wmRec n).result = 3 ∧ t.boot.outcome = s.boot.outcome) ∧
      (n = 19 → coursesSet s ≠ [] → ∃ t, exec i s = .next t ∧ (t.wmRec 19).units.toNat = down.length ∧
        (t.wmRec 19).result = (if down = [] then 1 else if down.length < (coursesSet s).length then 7 else 3) ∧ t.boot.outcome = s.boot.outcome) ∧
      (wmKind n = .e → wmRetries s n < s.boot.tries.getD n 1 → (wmMethods s n).length ≤ r.path + 1 → ∃ t, exec i s = .next t ∧ t.boot.outcome = wmSafe n)
    r.result = 5 → n ≠ 22 → s.boot.recs.length = 23 → s.boot.tries.length = 23 → s.boot.outcome = .running → s.power.vinStep = 0 →
    fails (.waymarkTimeout wm) ∧ fails (.waymarkEnd wm false ⟨none, []⟩) ∧
    (n = 1 ∧ s.boot.cause ≠ 1 ∨ n = 3 → r.units = 0 → ∃ t, exec (.waymarkEnd wm true ⟨none, []⟩) s = .next t ∧ (t.wmRec n).result = (if r.path = 0 then 1 else 2) ∧ t.boot.meth.getD n 0 = (if n < s.boot.meth.length then 4 * wmMethod s n else 0) ∧
      t.boot.wm = n + 1 ∧ (t.wmRec (n + 1)).result = 5 ∧ t.mem = s.mem) ∧
    (n = 1 → s.boot.cause = 1 →
      (heldOff s = false → ∃ t, exec (.waymarkEnd wm true ⟨none, []⟩) s = .next t ∧ t.power.st = .run ∧ t.boot.wm = 2 ∧ t.boot.pwrEn = true ∧ t.mem = s.mem) ∧
      (heldOff s = true → s.power.kept = none → s.side.keptReset = none → ∃ t, exec (.waymarkEnd wm true ⟨none, []⟩) s = .next t ∧ t.power.st = .sleep ∧ t.power.inTrans = false ∧ t.side.stale = staleWords t ∧ t.boot.wm = s.boot.wm ∧ t.mem = s.mem)) ∧
    (n = 14 ∨ n = 15 ∨ n = 16 → s.boot.portWm.length = 64 → s.boot.portWm.getD p.val 18 = n → (n = 14 → (s.port p.val).st = .active) →
      ∃ t, exec (.waymarkEnd wm true ⟨some p, []⟩) s = .next t ∧ t.boot.portWm = s.boot.portWm.set p.val (n + 1) ∧ (t.wmRec (n + 1)).result ≠ 0 ∧ t.mem = s.mem) ∧
    (n = 14 → s.boot.portWm.length = 64 → s.boot.portWm.getD p.val 18 = 14 → ∃ t, exec (.waymarkTimeout wm) s = .next t ∧ t.boot.portWm.getD p.val 18 = 15 ∧ t.mem = s.mem) ∧
    (n = 16 → s.boot.portWm.length = 64 → s.boot.portPath.length = 64 → s.boot.portWm.getD p.val 18 = 16 →
      (s.boot.portPath.getD p.val 0 = 0 → ∃ t, exec (.waymarkEnd wm false ⟨some p, []⟩) s = .next t ∧ t.boot.portPath = s.boot.portPath.set p.val 1 ∧ t.boot.portWm = s.boot.portWm ∧ t.ports = s.ports ∧
        t.wmRec 16 = { r with detail := BitVec.ofNat 8 (s.regF (Reg.SL_REC + 32 * p.val) 3 0), path := 1, attempts := min 15 (r.attempts + 1) } ∧ t.mem = s.mem) ∧
      (s.boot.portPath.getD p.val 0 ≠ 0 → p.val < s.ports.length → ∃ t, exec (.waymarkEnd wm false ⟨some p, []⟩) s = .next t ∧ t.boot.portWm = s.boot.portWm.set p.val 17 ∧ (t.port p.val).drivable = false ∧ t.mem = s.mem))

/-- R405, R423, R426, R409 to R411: the failure memory is cleared; the user calibration is saved and returned to the factory's while SYS_STAT is idle, and a write that is not is rejected; the engine's digests and verifications; a key is revoked unless it is the last of its kind; the random source. That the P-256 verify hashes with SHA-256 and the P-384 verify with SHA-384 is the model's reading (log entry 21). -/
def Obligations.CalibrationAndSecurityFollowChapter15 : Prop :=
  ∀ (s : State) (slot : Fin 8),
    let n := s.reg Reg.SEC_LEN 2
    let dst := s.regF Reg.SEC_DST 35 0 3
    let msg := (bytesOfWords (memReads s (s.regF Reg.SEC_SRC 35 0 3) ((n + 1) / 2))).take n
    let done : State := { s with sec := { s.sec with busy := false } }
    let run (op : BitVec 4) : State := if s.sec.busy then s else { s with sec := { s.sec with busy := true, op := op } }
    (∃ t, exec .waymarkMemoryClear s = .next t ∧ t.boot.meth = List.replicate 23 0 ∧ t.regs = s.regs ∧ t.disp = s.disp) ∧
    (sysIdle s = false → exec .calibrationSave s = .next (rejectChange s 0) ∧ exec .calibrationFactory s = .next (rejectChange s 0)) ∧
    (sysIdle s = true → exec .calibrationSave s = .next (writeLayer s) ∧
      (wmapWf regReset s.regs.val = true → ∃ t, exec .calibrationFactory s = .next t ∧ t.boot.calGen = 0 ∧ t.reg Reg.SYS_LGAIN = 0x100 ∧
        (∀ p : PortId, t.reg (Reg.SYS_TOFS + p.val) = 0) ∧ (∀ co : CourseId, t.reg (Reg.RL_CO_UTRIM1 + 16 * co.val) = 0 ∧ t.reg (Reg.RL_CO_UTRIM2 + 16 * co.val) = 0))) ∧
    (exec .sha256 s = .next (run 1) ∧ exec .sha384 s = .next (run 2) ∧ exec .verifyP256 s = .next (run 3) ∧ exec .verifyP384 s = .next (run 4)) ∧
    (s.sec.busy = true →
      (s.sec.op = 1 → exec .secCommandDone s = .next (memWrites done dst (wordsOfBytes (sha256 msg)))) ∧
      (s.sec.op = 2 → exec .secCommandDone s = .next (memWrites done dst (wordsOfBytes (sha384 msg)))) ∧
      (s.sec.op = 3 → exec .secCommandDone s = .next { done with sec := { done.sec with pass := p256.verifyBytes ((bytesOfWords (memReads s dst 64)).take 64) ((bytesOfWords (memReads s dst 64)).drop 64) (sha256 msg) } }) ∧
      (s.sec.op = 4 → exec .secCommandDone s = .next { done with sec := { done.sec with pass := p384.verifyBytes ((bytesOfWords (memReads s dst 96)).take 96) ((bytesOfWords (memReads s dst 96)).drop 96) (sha384 msg) } })) ∧
    (exec (.keyRevoke slot) s = .next (if (usableKeys s (decide (4 ≤ slot.val))).any (· != slot.val)
      then { s with sec := { s.sec with revoked := s.sec.revoked ||| BitVec.ofNat 8 (2 ^ slot.val) } } else s)) ∧
    (∃ v : BitVec 32, exec .rngRead s = .next { s with
      sec := { s.sec with rng := v }
      regs := { s.regs with cap := wmapSet s.regs.cap (Reg.SEC_RNG + 1) (v.extractLsb' 16 16) (regReset (Reg.SEC_RNG + 1)) }
      freeCtr := s.freeCtr + 1 })

/-- R427 to R431, R437 to R439, R445: heartbeats, late roles and role moves; detector reports join the error queue, and are counted where it is full; an uncorrectable error of a local memory poisons its word (R50; which word: log entry 49), and a channel of the state store whose reads fail is lost (R441; how it is reported: log entry 49); an event is logged with its SEQ, or counted into its like of the last second; the log's entries go to the state store in turn, once WM18 has passed (R430) and their channel serves them (R58); a role's move ends at its first heartbeat (the model's reading, log entry 44); the log's base moves at a clear; the request audit leaves a state whose identity holds as it is. -/
def Obligations.RolesEventsAndAuditsFollowChapter16 : Prop :=
  ∀ (s : State) (n : Fin 16) (core spare : Fin 17) (code a0 a1 a2 a3 : Word) (sev : BitVec 3) (blk unit : Byte) (e : EvEntry) (rest : List EvEntry),
    let args := [a0.toNat, a1.toNat, a2.toNat, a3.toNat]
    let seq := s.reg Reg.RAS_EVSEQ 2
    let words (seq : Nat) : List Word := eventWords code.toNat sev.toNat 1 seq s.time.toNat s.aon.tick.toNat blk.toNat unit.toNat args
    let like (x : EvEntry) : Prop := wordAt x.words 0 = code.toNat ∧ wordAt x.words 10 = blk.toNat * 256 + unit.toNat ∧ s.time.toNat < x.began.toNat + 100000000
    let q := dwordAt e.words 2
    let f := localFault s code.toNat blk.toNat unit.toNat a0.toNat
    wmapWf regReset s.regs.val = true →
    (s.ras.moving ≠ some n → exec (.heartbeat n) s = .next { s with ras := { s.ras with late := s.ras.late.set n.val false, hbAt := s.ras.hbAt.set n.val s.time } }) ∧
    (s.ras.moving = some n → s.ras.moveQ = [] → ∃ t, exec (.heartbeat n) s = .next t ∧ t.ras.moving = none ∧ t.ras.late = s.ras.late.set n.val false ∧ t.cores = s.cores ∧ t.mem = s.mem) ∧
    (s.power.st ≠ .doze → s.boot.mainOn = true → s.ras.late.getD n.val false = false → n.val < s.ras.late.length → coreOfRole s n = some core.val → (s.core core.val).running = true → n ≠ 0 →
      ∃ t, exec (.roleLate n) s = .next t ∧ t.ras.late = s.ras.late.set n.val true ∧ t.cores = s.cores ∧ t.mem = s.mem ∧
        t.intq = s.intq ++ [⟨liveRole s 0, 0x19, BitVec.ofNat 16 (0x2000 + n.val), 0⟩]) ∧
    (s.ras.moving = none → n ≠ 0 → coreOfWindow s 16 = some spare.val → coreOfRole s n = some core.val → s.cores.length = 18 →
      ∃ t, exec (.roleMove n) s = .next t ∧ t.ras.moving = some n ∧ (t.core core.val).retired = true ∧ (t.core core.val).role = none ∧ (t.core spare.val).role = some n ∧
        (t.core spare.val).running = true ∧ t.mem = s.mem) ∧
    (s.power.st ≠ .doze → s.boot.mainOn = true → s.boot.inReset = false → s.power.vinStep = 0 → s.power.vinf = false →
      ∃ t, exec .aocHeartbeatTimeout s = .next t ∧ t.boot.cause = 7 ∧ t.power.vinStep = 1 ∧ t.disp.stopped = true ∧ t.mem = s.mem) ∧
    (sev.toNat ≤ 4 → code = 0x1031 → blk = 5 → s.memc.ssLost = false → s.ssWords ≠ 0 →
      exec (.errorReport code sev blk unit a0 a1 a2 a3) s = .next (reportErr (loseStore s) code.toNat sev.toNat blk.toNat unit.toNat args) ∧
      (s.disp.regions = [] → s.disp.requests = [] → ∃ t, exec (.errorReport code sev blk unit a0 a1 a2 a3) s = .next t ∧ t.memc.ssLost = true ∧ t.memc.ssq = [] ∧ t.aon.ssLoss = true ∧ t.mem = s.mem)) ∧
    (sev.toNat ≤ 4 → (code = 0x1031 → blk = 5 → s.memc.ssLost = true ∨ s.ssWords = 0) →
      (s.ras.eq.length < 64 → exec (.errorReport code sev blk unit a0 a1 a2 a3) s = .next { f with ras := { s.ras with eq := s.ras.eq ++ [(words 0).set 15 0] } }) ∧
      (∀ k, code = 0x1002 → localFaultKey blk.toNat unit.toNat a0.toNat = some k → ∃ t, exec (.errorReport code sev blk unit a0 a1 a2 a3) s = .next t ∧ poisoned t k = true ∧ t.mem = s.mem) ∧
      (64 ≤ s.ras.eq.length → ∃ t, exec (.errorReport code sev blk unit a0 a1 a2 a3) s = .next t ∧ t.ras = s.ras ∧
        t.reg Reg.RAS_EQLOST 2 = min 4294967295 (s.reg Reg.RAS_EQLOST 2 + 1)) ∧
      ((∀ x ∈ s.ras.evq, ¬ like x) → s.ras.evq.length < 256 → ∃ t, exec (.eventLogged code sev blk unit a0 a1 a2 a3) s = .next t ∧
        t.ras = { s.ras with evq := s.ras.evq ++ [⟨words seq, s.time⟩] } ∧ t.reg Reg.RAS_EVSEQ 2 = (seq + 1) % 4294967296 ∧ t.side.mirror.getLast? = some (words seq) ∧
        t.mem = s.mem ∧ t.cores = s.cores ∧ (3 ≤ sev.toNat → t.side.alert = true)) ∧
      (s.ras.evq = e :: rest → like e → (∀ x ∈ rest, ¬ like x) → ∃ t, exec (.eventLogged code sev blk unit a0 a1 a2 a3) s = .next t ∧
        t.ras = { s.ras with evq := { e with words := mergeEntry e.words } :: rest } ∧ t.regs = s.regs ∧ t.mem = s.mem)) ∧
    (exec .errorQueuePop s = .next { s with ras := { s.ras with eq := s.ras.eq.drop 1 } }) ∧
    (s.memc.ssLost = false → s.ssWords ≠ 0 → dozing s = false → wmPassed s 18 = true → s.ras.evq = e :: rest → e.words.length = 16 → ssServes s 4 (0x1000 + 16 * (q % 4096)) 16 = true → wmapWf (fun _ => 0) s.mem = true →
      ∃ t, exec .eventLogWrite s = .next t ∧ t.ras = { s.ras with evq := rest } ∧ logEntry t q = e.words ∧ t.cores = s.cores ∧ t.disp = s.disp ∧
        ∀ a, (∀ i < 16, a ≠ ssAddr (0x1000 + 16 * (q % 4096) + i)) → memGet t a = memGet s a) ∧
    (s.ras.evq = [] → seq < 4294967295 → ∃ t, exec .eventLogClear s = .next t ∧ t.reg Reg.RAS_EVBASE 2 = seq ∧ t.reg Reg.RAS_EVSEQ 2 = seq + 1 ∧ t.ras.evq.length = 1 ∧ t.mem = s.mem) ∧
    (s.hif.rings.all Ring.auditOk = true → exec .requestAudit s = .next s)
end

