-- ==== Sys2Proof/Laws/CoreIssue.lean ====
section
/-! SUPPORT. What the issue of an instruction does, once: the lemmas through which every claim about a core instruction goes. -/
namespace Sys2Proof.Machine
open Sys2Proof

theorem core_getD_modify (l : List Core) (c d : Nat) (f : Core → Core) (x : Core) (h : c < l.length) :
    (l.modify c f).getD d x = if d = c then f (l.getD c x) else l.getD d x := by
  simp only [List.getD_eq_getElem?_getD, List.getElem?_modify]
  by_cases hd : c = d
  · subst hd; simp [List.getElem?_eq_getElem h]
  · have : ¬ d = c := fun e => hd e.symm
    simp [hd, this]

@[simp] theorem updCore_core (s : State) (c d : Nat) (f : Core → Core) (h : c < s.cores.length) :
    (s.updCore c f).core d = if d = c then f (s.core c) else s.core d := core_getD_modify _ _ _ _ _ h

@[simp] theorem updCore_length (s : State) (c : Nat) (f : Core → Core) : (s.updCore c f).cores.length = s.cores.length := by
  simp [State.updCore]

/-- A core that executes is one of the machine's. -/
theorem coreRuns_lt {s : State} {c : Nat} (h : coreRuns s c = true) : c < s.cores.length := by
  refine Decidable.byContradiction fun hc => ?_
  have : s.core c = Core.reset none := by
    simp only [State.core, List.getD_eq_getElem?_getD]
    rw [List.getElem?_eq_none (by omega)]; rfl
  simp [coreRuns, this, Core.reset] at h

/-- The parts of the machine that only the core's own bookkeeping touches. -/
def Beside (s t : State) (c : Nat) : Prop :=
  t.cores.length = s.cores.length ∧ (∀ d, d ≠ c → t.core d = s.core d) ∧
  ∃ b, (c ≠ 17 → b = s.power.clkBurst) ∧ t = { s with cores := t.cores, power := { s.power with clkBurst := b } }

theorem beside_refl (s : State) (c : Nat) : Beside s s c := ⟨rfl, fun _ _ => rfl, s.power.clkBurst, fun _ => rfl, rfl⟩

theorem beside_trans {s t u : State} {c : Nat} (h : Beside s t c) (g : Beside t u c) : Beside s u c := by
  obtain ⟨h1, h2, b, h3, h4⟩ := h
  obtain ⟨g1, g2, b', g3, g4⟩ := g
  refine ⟨g1.trans h1, fun d hd => (g2 d hd).trans (h2 d hd), b', fun hc => ?_, ?_⟩
  · rw [g3 hc, h4]; exact h3 hc
  · rw [g4, h4]

theorem beside_updCore (s : State) (c : Nat) (f : Core → Core) (h : c < s.cores.length) : Beside s (s.updCore c f) c :=
  ⟨by simp, fun d hd => by simp [h, hd], s.power.clkBurst, fun _ => rfl, rfl⟩

theorem addCycles_spec (s : State) (c n : Nat) (h : c < s.cores.length) :
    Beside s (addCycles s c n) c ∧ (addCycles s c n).core c = { s.core c with cycle := (s.core c).cycle + BitVec.ofNat 64 n, ahead := (s.core c).ahead + n } := by
  unfold addCycles
  by_cases hc : c = 17
  · simp only [hc, if_true]
    rw [hc] at h
    exact ⟨⟨by simp, fun d hd => (updCore_core _ _ _ _ h).trans (if_neg hd), true, fun e => absurd rfl e, rfl⟩,
      (updCore_core _ _ _ _ h).trans (if_pos rfl)⟩
  · simp only [hc, if_false]
    exact ⟨beside_updCore _ _ _ h, by simp [h]⟩

/-- What the fetch window's bookkeeping may leave of a core. -/
def WindowOf (k k' : Core) (pc : Addr) : Prop := ∃ base win page, k' = { k with pc := pc, winBase := base, win := win, winDe := page }

theorem winRefill_spec (s : State) (c : Nat) (h : c < s.cores.length) :
    Beside s (winRefill s c) c ∧ WindowOf (s.core c) ((winRefill s c).core c) (s.core c).pc := by
  unfold winRefill
  exact ⟨beside_updCore _ _ _ h, _, _, _, by rw [updCore_core _ _ _ _ h, if_pos rfl]⟩

theorem addr_add (k : Addr) (n : Nat) : BitVec.ofNat 36 (k.toNat + n) = k + BitVec.ofNat 36 n := by
  rw [BitVec.ofNat_add, BitVec.ofNat_toNat, BitVec.setWidth_eq]

theorem winAdvance_spec (s : State) (c n : Nat) (h : c < s.cores.length) :
    Beside s (winAdvance s c n) c ∧ WindowOf (s.core c) ((winAdvance s c n).core c) ((s.core c).pc + BitVec.ofNat 36 n) := by
  unfold winAdvance
  simp only [addr_add]
  split
  · exact ⟨beside_updCore _ _ _ h, _, _, _, by rw [updCore_core _ _ _ _ h, if_pos rfl]⟩
  · have h' : c < (s.updCore c fun k => { k with pc := (s.core c).pc + BitVec.ofNat 36 n }).cores.length := by simpa using h
    obtain ⟨b, base, win, page, e⟩ := winRefill_spec _ c h'
    refine ⟨beside_trans (beside_updCore _ _ _ h) b, base, win, page, ?_⟩
    rw [e, updCore_core _ _ _ _ h, if_pos rfl]

theorem jumpTo_spec (s : State) (c a : Nat) (h : c < s.cores.length) :
    Beside s (jumpTo s c a) c ∧ WindowOf (s.core c) ((jumpTo s c a).core c) (BitVec.ofNat 36 a) := by
  unfold jumpTo
  have h' : c < (s.updCore c fun k => { k with pc := BitVec.ofNat 36 a }).cores.length := by simpa using h
  obtain ⟨b, base, win, page, e⟩ := winRefill_spec _ c h'
  refine ⟨beside_trans (beside_updCore _ _ _ h) b, base, win, page, ?_⟩
  rw [e, updCore_core _ _ _ _ h, if_pos rfl]

/-- The end of an instruction that is not repeated. -/
theorem finish_spec (s : State) (c len count : Nat) (pc : Option Nat) (h : c < s.cores.length) :
    Beside s (finish s c len count false pc) c ∧
    WindowOf { s.core c with cycle := (s.core c).cycle + BitVec.ofNat 64 count, ahead := (s.core c).ahead + count } ((finish s c len count false pc).core c)
      (match pc with | some a => BitVec.ofNat 36 a | none => (s.core c).pc + BitVec.ofNat 36 len) := by
  obtain ⟨b, e⟩ := addCycles_spec s c count h
  have h' : c < (addCycles s c count).cores.length := b.1 ▸ h
  unfold finish
  cases pc with
  | none =>
    obtain ⟨b2, base, win, page, e2⟩ := winAdvance_spec (addCycles s c count) c len h'
    exact ⟨beside_trans b b2, base, win, page, by simp only [Bool.false_eq_true, if_false]; rw [e2, e]⟩
  | some a =>
    obtain ⟨b2, base, win, page, e2⟩ := jumpTo_spec (addCycles s c count) c a h'
    exact ⟨beside_trans b b2, base, win, page, by simp only [Bool.false_eq_true, if_false]; rw [e2, e]⟩

@[simp] theorem issuing_repa (k : Core) : k.issuing.repa = k.repa := rfl
@[simp] theorem issuing_far (k : Core) : k.issuing.far = k.far := rfl
@[simp] theorem issuing_depth (k : Core) : k.issuing.depth = k.depth := rfl
@[simp] theorem issuing_stack (k : Core) : k.issuing.stack = k.stack := rfl

/-- An instruction that can issue, whose condition holds and which is no decode fault, does what it does and ends. -/
theorem issueWith_done {s : State} {o : CoreOp} {dec : Decodes} {c : CoreId} {cond : Cond} {pc : Option Nat} {s1 : State}
    (hi : CanIssue s c o.len) (hf : condFits o cond = true) (hd : dec.fault s c.val = none) (hc : condHolds (s.core c.val) cond = true)
    (hr : runOp o ⟨c.val, (s.core c.val).pc.toNat, o.len, o.word cond, none⟩ (s.updCore c.val Core.issuing) = .done s1 pc) :
    issueWith o dec c cond s = .next (finish s1 c.val o.len o.count false pc) := by
  have h := coreRuns_lt hi.runs
  have f0 := hi.fetch 0 (by unfold CoreOp.len; split <;> omega)
  rw [Nat.add_zero, Nat.mod_eq_of_lt (s.core c.val).pc.isLt] at f0
  have f1 : (if o.long = true then fetchFault s c.val (((s.core c.val).pc.toNat + 1) % 2 ^ 36) else none) = none := by
    split
    · next hl => exact hi.fetch 1 (by unfold CoreOp.len; rw [if_pos hl]; omega)
    · rfl
  have hrep : ((s.updCore c.val Core.issuing).core c.val).repa = false := by
    rw [updCore_core _ _ _ _ h, if_pos rfl]; exact hi.noRep
  unfold issueWith
  simp only [hf, hi.runs, hi.clear, hi.noRep, f0, f1, hd, hc, hr, Bool.not_true, Bool.false_and, Bool.false_eq_true, if_false, if_true, ite_self, endRes, hrep]

/-- An instruction on the core alone: what it makes of the core, and nothing else. -/
theorem issueWith_core {s : State} {o : CoreOp} {dec : Decodes} {c : CoreId} {cond : Cond} {f : Core → Except Nat Core} {k' : Core}
    (hi : CanIssue s c o.len) (hf : condFits o cond = true) (hd : dec.fault s c.val = none) (hc : condHolds (s.core c.val) cond = true)
    (ha : o.act = .core f) (hn : o.need ≤ (s.core c.val).depth) (hl : (s.core c.val).depth - o.need + o.leave ≤ (s.core c.val).stack.length)
    (hk : f (s.core c.val).issuing = .ok k')
    (hs : k'.stalled = false) (hw : k'.waiting = false) (hp : k'.pc = (s.core c.val).pc) (hy : k'.cycle = (s.core c.val).cycle) (hz : k'.ahead = (s.core c.val).ahead) :
    ∃ t, issueWith o dec c cond s = .next t ∧ After s t c ((s.core c.val).pc + BitVec.ofNat 36 o.len) o.count k' := by
  have h := coreRuns_lt hi.runs
  have hcore : (s.updCore c.val Core.issuing).core c.val = (s.core c.val).issuing := by
    rw [updCore_core _ _ _ _ h, if_pos rfl]
  have hr : runOp o ⟨c.val, (s.core c.val).pc.toNat, o.len, o.word cond, none⟩ (s.updCore c.val Core.issuing)
      = .done ((s.updCore c.val Core.issuing).updCore c.val fun _ => k') none := by
    unfold runOp
    simp only [hcore, issuing_depth, issuing_stack, ha]
    rw [if_neg (by omega), if_neg (by omega), if_neg (by simp [readsPending, hi.noFar])]
    simp only [hk]
  refine ⟨_, issueWith_done hi hf hd hc hr, ?_⟩
  have h2 : c.val < ((s.updCore c.val Core.issuing).updCore c.val fun _ => k').cores.length := by simpa using h
  obtain ⟨⟨_, b2, b3⟩, base, win, page, e⟩ := finish_spec _ c.val o.len o.count none h2
  have hk2 : ((s.updCore c.val Core.issuing).updCore c.val fun _ => k').core c.val = k' := by
    rw [updCore_core _ _ _ _ (by simpa using h), if_pos rfl]
  refine ⟨⟨base, win, page, ?_⟩, fun d hd => ?_, ?_⟩
  · rw [e, hk2]
    cases k' with | mk => simp only at hs hw hp hy hz; subst hs hw hp hy hz; rfl
  · rw [b2 d hd, updCore_core _ _ _ _ (by simpa using h), if_neg hd, updCore_core _ _ _ _ h, if_neg hd]
  · obtain ⟨b, hb, ht⟩ := b3
    exact ⟨b, fun hne => hb fun he => hne (Fin.ext he), by rw [ht]; rfl⟩

end Sys2Proof.Machine
end

