-- ==== Sys2Proof/Laws/CoreStack.lean ====
section
/-! SUPPORT. The operand stack: what a replacement of its top entries leaves (R202), and the lemma that turns an instruction which computes from its entries into what it leaves. -/
namespace Sys2Proof.Machine
open Sys2Proof

@[simp] theorem putAt_length (l : List Word) (i : Nat) (ws : List Word) : (putAt l i ws).length = l.length := by
  induction ws generalizing l i with
  | nil => rfl
  | cons w ws ih => simp [putAt, ih]

theorem putAt_getElem? (l : List Word) (i : Nat) (ws : List Word) (j : Nat) (h : i + ws.length ≤ l.length) :
    (putAt l i ws)[j]? = if i ≤ j ∧ j < i + ws.length then ws[j - i]? else l[j]? := by
  induction ws generalizing l i with
  | nil => simp only [putAt]; rw [if_neg (by simp only [List.length_nil]; omega)]
  | cons w ws ih =>
    simp only [List.length_cons] at h
    rw [putAt, ih _ _ (by simp; omega)]
    simp only [List.length_cons]
    by_cases h1 : j = i
    · subst h1
      rw [if_neg (by omega), if_pos (by omega)]
      rw [Nat.sub_self, List.getElem?_cons_zero, List.getElem?_set_self (by omega)]
    · by_cases h2 : i + 1 ≤ j ∧ j < i + 1 + ws.length
      · rw [if_pos h2, if_pos (by omega)]
        obtain ⟨m, hm⟩ : ∃ m, j - i = m + 1 := ⟨j - i - 1, by omega⟩
        rw [hm, List.getElem?_cons_succ]
        congr 1
        omega
      · rw [if_neg h2, if_neg (by omega), List.getElem?_set]
        rw [if_neg (by omega)]

/-- The words put from position `i` on stand there, above what was below. -/
theorem putAt_take (l : List Word) (i : Nat) (ws : List Word) (h : i + ws.length ≤ l.length) :
    (putAt l i ws).take (i + ws.length) = l.take i ++ ws := by
  apply List.ext_getElem?
  intro j
  rw [List.getElem?_take, List.getElem?_append, putAt_getElem? _ _ _ _ h]
  simp only [List.length_take, List.getElem?_take]
  by_cases h1 : j < i
  · rw [if_pos (by omega), if_neg (by omega), if_pos (by omega), if_pos h1]
  · by_cases h2 : j < i + ws.length
    · rw [if_pos h2, if_pos (by omega), if_neg (by omega)]
      congr 1
      omega
    · rw [if_neg h2, if_neg (by omega)]
      rw [List.getElem?_eq_none]
      omega

/-- A top entry, by what the stack holds. -/
theorem holds_arg {k : Core} {base ins : List Word} (h : Holds k (base ++ ins)) (i : Nat) (hi : i < ins.length) :
    k.arg ins.length i = (ins.getD i 0).toNat := by
  have h1 := h.depth
  have h2 := h.take
  simp only [List.length_append] at h1 h2
  unfold Core.arg
  rw [show k.depth - ins.length + i = base.length + i by omega]
  congr 1
  have h3 : (k.stack.take (base.length + ins.length))[base.length + i]? = (base ++ ins)[base.length + i]? := by rw [h2]
  rw [List.getElem?_take, if_pos (by omega), List.getElem?_append_right (by omega)] at h3
  rw [List.getD_eq_getElem?_getD, h3, show base.length + i - base.length = i by omega, List.getD_eq_getElem?_getD]

theorem holds_issuing {k : Core} {l : List Word} (h : Holds k l) : Holds k.issuing l := ⟨h.depth, h.take⟩

/-- No flag named, none changed. -/
@[simp] theorem flags_none (k : Core) : k.flags {} = k := by
  simp [Core.flags, FlagUpd.apply, putFlag, wd]

theorem condFits_of_fires {s : State} {c : CoreId} {cond : Cond} {o : CoreOp} (h : Fires s c cond o.len) : condFits o cond = true := by
  unfold condFits
  cases hl : o.long with
  | true => rfl
  | false =>
    have := h.form (by simp [CoreOp.len, hl])
    cases cond <;> simp_all [Cond.short, condC2]

/-- What an instruction leaves that replaces its entries by what it computes from them, changes the flags it computes, and sets other registers of the core to those of `k`. -/
theorem leaves_of_core {s : State} {o : CoreOp} {dec : Decodes} {c : CoreId} {cond : Cond} {base ins out : List Word} {fl : FlagUpd} {k : Core}
    (h : Fires s c cond o.len) (hd : dec.fault s c.val = none)
    (hh : Holds (s.core c.val) (base ++ ins)) (hn : ins.length = o.need) (hl : out.length = o.leave)
    (hroom : Room (s.core c.val) (base.length + o.leave))
    (hs : k.stack = (s.core c.val).stack) (hp : k.pc = (s.core c.val).pc) (hy : k.cycle = (s.core c.val).cycle) (hz : k.ahead = (s.core c.val).ahead) (hdp : k.depth = (s.core c.val).depth)
    (ha : ∃ f, o.act = .core f ∧ f (s.core c.val).issuing = .ok (((k.issuing).replace o.need out).flags fl)) :
    Leaves s (issueWith o dec c cond s) c o.len o.count k (base ++ out) fl := by
  obtain ⟨f, ha, hk⟩ := ha
  have hdep := hh.depth
  simp only [List.length_append] at hdep
  unfold Room at hroom
  obtain ⟨t, ht, haft⟩ := issueWith_core h.can (condFits_of_fires h) hd h.holds ha (by omega) (by omega) hk rfl rfl hp hy hz
  have hfit : (s.core c.val).depth - o.need + out.length ≤ (s.core c.val).stack.length := by omega
  refine ⟨t, putAt (s.core c.val).stack ((s.core c.val).depth - o.need) out, by simp [hs], ?_, ht, ?_⟩
  · have htk := putAt_take (s.core c.val).stack ((s.core c.val).depth - o.need) out hfit
    rw [show (base ++ out).length = (s.core c.val).depth - o.need + out.length by simp; omega, htk]
    congr 1
    have := congrArg (List.take base.length) hh.take
    rw [List.take_take, List.length_append, Nat.min_eq_left (by omega), List.take_left] at this
    rw [show (s.core c.val).depth - o.need = base.length by omega, this]
  · obtain ⟨⟨b, w, p, e⟩, h2, h3⟩ := haft
    refine ⟨⟨b, w, p, ?_⟩, h2, h3⟩
    rw [e]
    simp only [Core.flags, Core.replace, Core.issuing, hs, hdp]
    congr 1
    simp; omega

/-- As leaves_of_core, where every other register of the core keeps its value. -/
theorem computes_of_core {s : State} {o : CoreOp} {dec : Decodes} {c : CoreId} {cond : Cond} {base ins out : List Word} {fl : FlagUpd}
    (h : Fires s c cond o.len) (hd : dec.fault s c.val = none)
    (hh : Holds (s.core c.val) (base ++ ins)) (hn : ins.length = o.need) (hl : out.length = o.leave)
    (hroom : Room (s.core c.val) (base.length + o.leave))
    (ha : ∃ f, o.act = .core f ∧ f (s.core c.val).issuing = .ok (((s.core c.val).issuing.replace o.need out).flags fl)) :
    Computes s (issueWith o dec c cond s) c o.len o.count (base ++ out) fl :=
  leaves_of_core h hd hh hn hl hroom rfl rfl rfl rfl rfl ha

end Sys2Proof.Machine
end

