-- ==== Sys2Proof/Laws/State.lean ====
section
/-! SUPPORT. What each update of the state leaves of the other fields: one lemma for each field, true by rfl. -/
namespace Sys2Proof.Machine
open Sys2Proof

/-! updCore -/
@[simp] theorem updCore_pending (s : State) (c : Nat) (f : Core → Core) : (s.updCore c f).pending = s.pending := rfl
@[simp] theorem updCore_mem (s : State) (c : Nat) (f : Core → Core) : (s.updCore c f).mem = s.mem := rfl
@[simp] theorem updCore_poison (s : State) (c : Nat) (f : Core → Core) : (s.updCore c f).poison = s.poison := rfl
@[simp] theorem updCore_hostMem (s : State) (c : Nat) (f : Core → Core) : (s.updCore c f).hostMem = s.hostMem := rfl
@[simp] theorem updCore_regs (s : State) (c : Nat) (f : Core → Core) : (s.updCore c f).regs = s.regs := rfl
@[simp] theorem updCore_intq (s : State) (c : Nat) (f : Core → Core) : (s.updCore c f).intq = s.intq := rfl
@[simp] theorem updCore_ve (s : State) (c : Nat) (f : Core → Core) : (s.updCore c f).ve = s.ve := rfl
@[simp] theorem updCore_sets (s : State) (c : Nat) (f : Core → Core) : (s.updCore c f).sets = s.sets := rfl
@[simp] theorem updCore_disp (s : State) (c : Nat) (f : Core → Core) : (s.updCore c f).disp = s.disp := rfl
@[simp] theorem updCore_ports (s : State) (c : Nat) (f : Core → Core) : (s.updCore c f).ports = s.ports := rfl
@[simp] theorem updCore_courses (s : State) (c : Nat) (f : Core → Core) : (s.updCore c f).courses = s.courses := rfl
@[simp] theorem updCore_loops (s : State) (c : Nat) (f : Core → Core) : (s.updCore c f).loops = s.loops := rfl
@[simp] theorem updCore_memc (s : State) (c : Nat) (f : Core → Core) : (s.updCore c f).memc = s.memc := rfl
@[simp] theorem updCore_power (s : State) (c : Nat) (f : Core → Core) : (s.updCore c f).power = s.power := rfl
@[simp] theorem updCore_aon (s : State) (c : Nat) (f : Core → Core) : (s.updCore c f).aon = s.aon := rfl
@[simp] theorem updCore_hif (s : State) (c : Nat) (f : Core → Core) : (s.updCore c f).hif = s.hif := rfl
@[simp] theorem updCore_side (s : State) (c : Nat) (f : Core → Core) : (s.updCore c f).side = s.side := rfl
@[simp] theorem updCore_boot (s : State) (c : Nat) (f : Core → Core) : (s.updCore c f).boot = s.boot := rfl
@[simp] theorem updCore_sec (s : State) (c : Nat) (f : Core → Core) : (s.updCore c f).sec = s.sec := rfl
@[simp] theorem updCore_ras (s : State) (c : Nat) (f : Core → Core) : (s.updCore c f).ras = s.ras := rfl
@[simp] theorem updCore_time (s : State) (c : Nat) (f : Core → Core) : (s.updCore c f).time = s.time := rfl
@[simp] theorem updCore_timeFrac (s : State) (c : Nat) (f : Core → Core) : (s.updCore c f).timeFrac = s.timeFrac := rfl
@[simp] theorem updCore_freeCtr (s : State) (c : Nat) (f : Core → Core) : (s.updCore c f).freeCtr = s.freeCtr := rfl

/-! updPort -/
@[simp] theorem updPort_pending (s : State) (p : Nat) (f : Port → Port) : (s.updPort p f).pending = s.pending := rfl
@[simp] theorem updPort_mem (s : State) (p : Nat) (f : Port → Port) : (s.updPort p f).mem = s.mem := rfl
@[simp] theorem updPort_poison (s : State) (p : Nat) (f : Port → Port) : (s.updPort p f).poison = s.poison := rfl
@[simp] theorem updPort_hostMem (s : State) (p : Nat) (f : Port → Port) : (s.updPort p f).hostMem = s.hostMem := rfl
@[simp] theorem updPort_regs (s : State) (p : Nat) (f : Port → Port) : (s.updPort p f).regs = s.regs := rfl
@[simp] theorem updPort_cores (s : State) (p : Nat) (f : Port → Port) : (s.updPort p f).cores = s.cores := rfl
@[simp] theorem updPort_intq (s : State) (p : Nat) (f : Port → Port) : (s.updPort p f).intq = s.intq := rfl
@[simp] theorem updPort_ve (s : State) (p : Nat) (f : Port → Port) : (s.updPort p f).ve = s.ve := rfl
@[simp] theorem updPort_sets (s : State) (p : Nat) (f : Port → Port) : (s.updPort p f).sets = s.sets := rfl
@[simp] theorem updPort_disp (s : State) (p : Nat) (f : Port → Port) : (s.updPort p f).disp = s.disp := rfl
@[simp] theorem updPort_courses (s : State) (p : Nat) (f : Port → Port) : (s.updPort p f).courses = s.courses := rfl
@[simp] theorem updPort_loops (s : State) (p : Nat) (f : Port → Port) : (s.updPort p f).loops = s.loops := rfl
@[simp] theorem updPort_memc (s : State) (p : Nat) (f : Port → Port) : (s.updPort p f).memc = s.memc := rfl
@[simp] theorem updPort_power (s : State) (p : Nat) (f : Port → Port) : (s.updPort p f).power = s.power := rfl
@[simp] theorem updPort_aon (s : State) (p : Nat) (f : Port → Port) : (s.updPort p f).aon = s.aon := rfl
@[simp] theorem updPort_hif (s : State) (p : Nat) (f : Port → Port) : (s.updPort p f).hif = s.hif := rfl
@[simp] theorem updPort_side (s : State) (p : Nat) (f : Port → Port) : (s.updPort p f).side = s.side := rfl
@[simp] theorem updPort_boot (s : State) (p : Nat) (f : Port → Port) : (s.updPort p f).boot = s.boot := rfl
@[simp] theorem updPort_sec (s : State) (p : Nat) (f : Port → Port) : (s.updPort p f).sec = s.sec := rfl
@[simp] theorem updPort_ras (s : State) (p : Nat) (f : Port → Port) : (s.updPort p f).ras = s.ras := rfl
@[simp] theorem updPort_time (s : State) (p : Nat) (f : Port → Port) : (s.updPort p f).time = s.time := rfl
@[simp] theorem updPort_timeFrac (s : State) (p : Nat) (f : Port → Port) : (s.updPort p f).timeFrac = s.timeFrac := rfl
@[simp] theorem updPort_freeCtr (s : State) (p : Nat) (f : Port → Port) : (s.updPort p f).freeCtr = s.freeCtr := rfl

/-! updCourse -/
@[simp] theorem updCourse_pending (s : State) (c : Nat) (f : Course → Course) : (s.updCourse c f).pending = s.pending := rfl
@[simp] theorem updCourse_mem (s : State) (c : Nat) (f : Course → Course) : (s.updCourse c f).mem = s.mem := rfl
@[simp] theorem updCourse_poison (s : State) (c : Nat) (f : Course → Course) : (s.updCourse c f).poison = s.poison := rfl
@[simp] theorem updCourse_hostMem (s : State) (c : Nat) (f : Course → Course) : (s.updCourse c f).hostMem = s.hostMem := rfl
@[simp] theorem updCourse_regs (s : State) (c : Nat) (f : Course → Course) : (s.updCourse c f).regs = s.regs := rfl
@[simp] theorem updCourse_cores (s : State) (c : Nat) (f : Course → Course) : (s.updCourse c f).cores = s.cores := rfl
@[simp] theorem updCourse_intq (s : State) (c : Nat) (f : Course → Course) : (s.updCourse c f).intq = s.intq := rfl
@[simp] theorem updCourse_ve (s : State) (c : Nat) (f : Course → Course) : (s.updCourse c f).ve = s.ve := rfl
@[simp] theorem updCourse_sets (s : State) (c : Nat) (f : Course → Course) : (s.updCourse c f).sets = s.sets := rfl
@[simp] theorem updCourse_disp (s : State) (c : Nat) (f : Course → Course) : (s.updCourse c f).disp = s.disp := rfl
@[simp] theorem updCourse_ports (s : State) (c : Nat) (f : Course → Course) : (s.updCourse c f).ports = s.ports := rfl
@[simp] theorem updCourse_loops (s : State) (c : Nat) (f : Course → Course) : (s.updCourse c f).loops = s.loops := rfl
@[simp] theorem updCourse_memc (s : State) (c : Nat) (f : Course → Course) : (s.updCourse c f).memc = s.memc := rfl
@[simp] theorem updCourse_power (s : State) (c : Nat) (f : Course → Course) : (s.updCourse c f).power = s.power := rfl
@[simp] theorem updCourse_aon (s : State) (c : Nat) (f : Course → Course) : (s.updCourse c f).aon = s.aon := rfl
@[simp] theorem updCourse_hif (s : State) (c : Nat) (f : Course → Course) : (s.updCourse c f).hif = s.hif := rfl
@[simp] theorem updCourse_side (s : State) (c : Nat) (f : Course → Course) : (s.updCourse c f).side = s.side := rfl
@[simp] theorem updCourse_boot (s : State) (c : Nat) (f : Course → Course) : (s.updCourse c f).boot = s.boot := rfl
@[simp] theorem updCourse_sec (s : State) (c : Nat) (f : Course → Course) : (s.updCourse c f).sec = s.sec := rfl
@[simp] theorem updCourse_ras (s : State) (c : Nat) (f : Course → Course) : (s.updCourse c f).ras = s.ras := rfl
@[simp] theorem updCourse_time (s : State) (c : Nat) (f : Course → Course) : (s.updCourse c f).time = s.time := rfl
@[simp] theorem updCourse_timeFrac (s : State) (c : Nat) (f : Course → Course) : (s.updCourse c f).timeFrac = s.timeFrac := rfl
@[simp] theorem updCourse_freeCtr (s : State) (c : Nat) (f : Course → Course) : (s.updCourse c f).freeCtr = s.freeCtr := rfl

/-! updRing -/
@[simp] theorem updRing_pending (s : State) (r : Nat) (f : Ring → Ring) : (s.updRing r f).pending = s.pending := rfl
@[simp] theorem updRing_mem (s : State) (r : Nat) (f : Ring → Ring) : (s.updRing r f).mem = s.mem := rfl
@[simp] theorem updRing_poison (s : State) (r : Nat) (f : Ring → Ring) : (s.updRing r f).poison = s.poison := rfl
@[simp] theorem updRing_hostMem (s : State) (r : Nat) (f : Ring → Ring) : (s.updRing r f).hostMem = s.hostMem := rfl
@[simp] theorem updRing_regs (s : State) (r : Nat) (f : Ring → Ring) : (s.updRing r f).regs = s.regs := rfl
@[simp] theorem updRing_cores (s : State) (r : Nat) (f : Ring → Ring) : (s.updRing r f).cores = s.cores := rfl
@[simp] theorem updRing_intq (s : State) (r : Nat) (f : Ring → Ring) : (s.updRing r f).intq = s.intq := rfl
@[simp] theorem updRing_ve (s : State) (r : Nat) (f : Ring → Ring) : (s.updRing r f).ve = s.ve := rfl
@[simp] theorem updRing_sets (s : State) (r : Nat) (f : Ring → Ring) : (s.updRing r f).sets = s.sets := rfl
@[simp] theorem updRing_disp (s : State) (r : Nat) (f : Ring → Ring) : (s.updRing r f).disp = s.disp := rfl
@[simp] theorem updRing_ports (s : State) (r : Nat) (f : Ring → Ring) : (s.updRing r f).ports = s.ports := rfl
@[simp] theorem updRing_courses (s : State) (r : Nat) (f : Ring → Ring) : (s.updRing r f).courses = s.courses := rfl
@[simp] theorem updRing_loops (s : State) (r : Nat) (f : Ring → Ring) : (s.updRing r f).loops = s.loops := rfl
@[simp] theorem updRing_memc (s : State) (r : Nat) (f : Ring → Ring) : (s.updRing r f).memc = s.memc := rfl
@[simp] theorem updRing_power (s : State) (r : Nat) (f : Ring → Ring) : (s.updRing r f).power = s.power := rfl
@[simp] theorem updRing_aon (s : State) (r : Nat) (f : Ring → Ring) : (s.updRing r f).aon = s.aon := rfl
@[simp] theorem updRing_side (s : State) (r : Nat) (f : Ring → Ring) : (s.updRing r f).side = s.side := rfl
@[simp] theorem updRing_boot (s : State) (r : Nat) (f : Ring → Ring) : (s.updRing r f).boot = s.boot := rfl
@[simp] theorem updRing_sec (s : State) (r : Nat) (f : Ring → Ring) : (s.updRing r f).sec = s.sec := rfl
@[simp] theorem updRing_ras (s : State) (r : Nat) (f : Ring → Ring) : (s.updRing r f).ras = s.ras := rfl
@[simp] theorem updRing_time (s : State) (r : Nat) (f : Ring → Ring) : (s.updRing r f).time = s.time := rfl
@[simp] theorem updRing_timeFrac (s : State) (r : Nat) (f : Ring → Ring) : (s.updRing r f).timeFrac = s.timeFrac := rfl
@[simp] theorem updRing_freeCtr (s : State) (r : Nat) (f : Ring → Ring) : (s.updRing r f).freeCtr = s.freeCtr := rfl

/-! updQueue -/
@[simp] theorem updQueue_pending (s : State) (q : Nat) (f : VQueue → VQueue) : (s.updQueue q f).pending = s.pending := rfl
@[simp] theorem updQueue_mem (s : State) (q : Nat) (f : VQueue → VQueue) : (s.updQueue q f).mem = s.mem := rfl
@[simp] theorem updQueue_poison (s : State) (q : Nat) (f : VQueue → VQueue) : (s.updQueue q f).poison = s.poison := rfl
@[simp] theorem updQueue_hostMem (s : State) (q : Nat) (f : VQueue → VQueue) : (s.updQueue q f).hostMem = s.hostMem := rfl
@[simp] theorem updQueue_regs (s : State) (q : Nat) (f : VQueue → VQueue) : (s.updQueue q f).regs = s.regs := rfl
@[simp] theorem updQueue_cores (s : State) (q : Nat) (f : VQueue → VQueue) : (s.updQueue q f).cores = s.cores := rfl
@[simp] theorem updQueue_intq (s : State) (q : Nat) (f : VQueue → VQueue) : (s.updQueue q f).intq = s.intq := rfl
@[simp] theorem updQueue_sets (s : State) (q : Nat) (f : VQueue → VQueue) : (s.updQueue q f).sets = s.sets := rfl
@[simp] theorem updQueue_disp (s : State) (q : Nat) (f : VQueue → VQueue) : (s.updQueue q f).disp = s.disp := rfl
@[simp] theorem updQueue_ports (s : State) (q : Nat) (f : VQueue → VQueue) : (s.updQueue q f).ports = s.ports := rfl
@[simp] theorem updQueue_courses (s : State) (q : Nat) (f : VQueue → VQueue) : (s.updQueue q f).courses = s.courses := rfl
@[simp] theorem updQueue_loops (s : State) (q : Nat) (f : VQueue → VQueue) : (s.updQueue q f).loops = s.loops := rfl
@[simp] theorem updQueue_memc (s : State) (q : Nat) (f : VQueue → VQueue) : (s.updQueue q f).memc = s.memc := rfl
@[simp] theorem updQueue_power (s : State) (q : Nat) (f : VQueue → VQueue) : (s.updQueue q f).power = s.power := rfl
@[simp] theorem updQueue_aon (s : State) (q : Nat) (f : VQueue → VQueue) : (s.updQueue q f).aon = s.aon := rfl
@[simp] theorem updQueue_hif (s : State) (q : Nat) (f : VQueue → VQueue) : (s.updQueue q f).hif = s.hif := rfl
@[simp] theorem updQueue_side (s : State) (q : Nat) (f : VQueue → VQueue) : (s.updQueue q f).side = s.side := rfl
@[simp] theorem updQueue_boot (s : State) (q : Nat) (f : VQueue → VQueue) : (s.updQueue q f).boot = s.boot := rfl
@[simp] theorem updQueue_sec (s : State) (q : Nat) (f : VQueue → VQueue) : (s.updQueue q f).sec = s.sec := rfl
@[simp] theorem updQueue_ras (s : State) (q : Nat) (f : VQueue → VQueue) : (s.updQueue q f).ras = s.ras := rfl
@[simp] theorem updQueue_time (s : State) (q : Nat) (f : VQueue → VQueue) : (s.updQueue q f).time = s.time := rfl
@[simp] theorem updQueue_timeFrac (s : State) (q : Nat) (f : VQueue → VQueue) : (s.updQueue q f).timeFrac = s.timeFrac := rfl
@[simp] theorem updQueue_freeCtr (s : State) (q : Nat) (f : VQueue → VQueue) : (s.updQueue q f).freeCtr = s.freeCtr := rfl

/-! updSlate -/
@[simp] theorem updSlate_pending (s : State) (p : Nat) (f : Slate → Slate) : (s.updSlate p f).pending = s.pending := rfl
@[simp] theorem updSlate_mem (s : State) (p : Nat) (f : Slate → Slate) : (s.updSlate p f).mem = s.mem := rfl
@[simp] theorem updSlate_poison (s : State) (p : Nat) (f : Slate → Slate) : (s.updSlate p f).poison = s.poison := rfl
@[simp] theorem updSlate_hostMem (s : State) (p : Nat) (f : Slate → Slate) : (s.updSlate p f).hostMem = s.hostMem := rfl
@[simp] theorem updSlate_regs (s : State) (p : Nat) (f : Slate → Slate) : (s.updSlate p f).regs = s.regs := rfl
@[simp] theorem updSlate_cores (s : State) (p : Nat) (f : Slate → Slate) : (s.updSlate p f).cores = s.cores := rfl
@[simp] theorem updSlate_intq (s : State) (p : Nat) (f : Slate → Slate) : (s.updSlate p f).intq = s.intq := rfl
@[simp] theorem updSlate_ve (s : State) (p : Nat) (f : Slate → Slate) : (s.updSlate p f).ve = s.ve := rfl
@[simp] theorem updSlate_sets (s : State) (p : Nat) (f : Slate → Slate) : (s.updSlate p f).sets = s.sets := rfl
@[simp] theorem updSlate_disp (s : State) (p : Nat) (f : Slate → Slate) : (s.updSlate p f).disp = s.disp := rfl
@[simp] theorem updSlate_courses (s : State) (p : Nat) (f : Slate → Slate) : (s.updSlate p f).courses = s.courses := rfl
@[simp] theorem updSlate_loops (s : State) (p : Nat) (f : Slate → Slate) : (s.updSlate p f).loops = s.loops := rfl
@[simp] theorem updSlate_memc (s : State) (p : Nat) (f : Slate → Slate) : (s.updSlate p f).memc = s.memc := rfl
@[simp] theorem updSlate_power (s : State) (p : Nat) (f : Slate → Slate) : (s.updSlate p f).power = s.power := rfl
@[simp] theorem updSlate_aon (s : State) (p : Nat) (f : Slate → Slate) : (s.updSlate p f).aon = s.aon := rfl
@[simp] theorem updSlate_hif (s : State) (p : Nat) (f : Slate → Slate) : (s.updSlate p f).hif = s.hif := rfl
@[simp] theorem updSlate_side (s : State) (p : Nat) (f : Slate → Slate) : (s.updSlate p f).side = s.side := rfl
@[simp] theorem updSlate_boot (s : State) (p : Nat) (f : Slate → Slate) : (s.updSlate p f).boot = s.boot := rfl
@[simp] theorem updSlate_sec (s : State) (p : Nat) (f : Slate → Slate) : (s.updSlate p f).sec = s.sec := rfl
@[simp] theorem updSlate_ras (s : State) (p : Nat) (f : Slate → Slate) : (s.updSlate p f).ras = s.ras := rfl
@[simp] theorem updSlate_time (s : State) (p : Nat) (f : Slate → Slate) : (s.updSlate p f).time = s.time := rfl
@[simp] theorem updSlate_timeFrac (s : State) (p : Nat) (f : Slate → Slate) : (s.updSlate p f).timeFrac = s.timeFrac := rfl
@[simp] theorem updSlate_freeCtr (s : State) (p : Nat) (f : Slate → Slate) : (s.updSlate p f).freeCtr = s.freeCtr := rfl

/-! updRegion -/
@[simp] theorem updRegion_pending (s : State) (i : Nat) (f : Region → Region) : (s.updRegion i f).pending = s.pending := rfl
@[simp] theorem updRegion_mem (s : State) (i : Nat) (f : Region → Region) : (s.updRegion i f).mem = s.mem := rfl
@[simp] theorem updRegion_poison (s : State) (i : Nat) (f : Region → Region) : (s.updRegion i f).poison = s.poison := rfl
@[simp] theorem updRegion_hostMem (s : State) (i : Nat) (f : Region → Region) : (s.updRegion i f).hostMem = s.hostMem := rfl
@[simp] theorem updRegion_regs (s : State) (i : Nat) (f : Region → Region) : (s.updRegion i f).regs = s.regs := rfl
@[simp] theorem updRegion_cores (s : State) (i : Nat) (f : Region → Region) : (s.updRegion i f).cores = s.cores := rfl
@[simp] theorem updRegion_intq (s : State) (i : Nat) (f : Region → Region) : (s.updRegion i f).intq = s.intq := rfl
@[simp] theorem updRegion_ve (s : State) (i : Nat) (f : Region → Region) : (s.updRegion i f).ve = s.ve := rfl
@[simp] theorem updRegion_sets (s : State) (i : Nat) (f : Region → Region) : (s.updRegion i f).sets = s.sets := rfl
@[simp] theorem updRegion_ports (s : State) (i : Nat) (f : Region → Region) : (s.updRegion i f).ports = s.ports := rfl
@[simp] theorem updRegion_courses (s : State) (i : Nat) (f : Region → Region) : (s.updRegion i f).courses = s.courses := rfl
@[simp] theorem updRegion_loops (s : State) (i : Nat) (f : Region → Region) : (s.updRegion i f).loops = s.loops := rfl
@[simp] theorem updRegion_memc (s : State) (i : Nat) (f : Region → Region) : (s.updRegion i f).memc = s.memc := rfl
@[simp] theorem updRegion_power (s : State) (i : Nat) (f : Region → Region) : (s.updRegion i f).power = s.power := rfl
@[simp] theorem updRegion_aon (s : State) (i : Nat) (f : Region → Region) : (s.updRegion i f).aon = s.aon := rfl
@[simp] theorem updRegion_hif (s : State) (i : Nat) (f : Region → Region) : (s.updRegion i f).hif = s.hif := rfl
@[simp] theorem updRegion_side (s : State) (i : Nat) (f : Region → Region) : (s.updRegion i f).side = s.side := rfl
@[simp] theorem updRegion_boot (s : State) (i : Nat) (f : Region → Region) : (s.updRegion i f).boot = s.boot := rfl
@[simp] theorem updRegion_sec (s : State) (i : Nat) (f : Region → Region) : (s.updRegion i f).sec = s.sec := rfl
@[simp] theorem updRegion_ras (s : State) (i : Nat) (f : Region → Region) : (s.updRegion i f).ras = s.ras := rfl
@[simp] theorem updRegion_time (s : State) (i : Nat) (f : Region → Region) : (s.updRegion i f).time = s.time := rfl
@[simp] theorem updRegion_timeFrac (s : State) (i : Nat) (f : Region → Region) : (s.updRegion i f).timeFrac = s.timeFrac := rfl
@[simp] theorem updRegion_freeCtr (s : State) (i : Nat) (f : Region → Region) : (s.updRegion i f).freeCtr = s.freeCtr := rfl

/-! dropRegion -/
@[simp] theorem dropRegion_pending (s : State) (i : Nat) : (s.dropRegion i).pending = s.pending := rfl
@[simp] theorem dropRegion_mem (s : State) (i : Nat) : (s.dropRegion i).mem = s.mem := rfl
@[simp] theorem dropRegion_poison (s : State) (i : Nat) : (s.dropRegion i).poison = s.poison := rfl
@[simp] theorem dropRegion_hostMem (s : State) (i : Nat) : (s.dropRegion i).hostMem = s.hostMem := rfl
@[simp] theorem dropRegion_regs (s : State) (i : Nat) : (s.dropRegion i).regs = s.regs := rfl
@[simp] theorem dropRegion_cores (s : State) (i : Nat) : (s.dropRegion i).cores = s.cores := rfl
@[simp] theorem dropRegion_intq (s : State) (i : Nat) : (s.dropRegion i).intq = s.intq := rfl
@[simp] theorem dropRegion_ve (s : State) (i : Nat) : (s.dropRegion i).ve = s.ve := rfl
@[simp] theorem dropRegion_sets (s : State) (i : Nat) : (s.dropRegion i).sets = s.sets := rfl
@[simp] theorem dropRegion_ports (s : State) (i : Nat) : (s.dropRegion i).ports = s.ports := rfl
@[simp] theorem dropRegion_courses (s : State) (i : Nat) : (s.dropRegion i).courses = s.courses := rfl
@[simp] theorem dropRegion_loops (s : State) (i : Nat) : (s.dropRegion i).loops = s.loops := rfl
@[simp] theorem dropRegion_memc (s : State) (i : Nat) : (s.dropRegion i).memc = s.memc := rfl
@[simp] theorem dropRegion_power (s : State) (i : Nat) : (s.dropRegion i).power = s.power := rfl
@[simp] theorem dropRegion_aon (s : State) (i : Nat) : (s.dropRegion i).aon = s.aon := rfl
@[simp] theorem dropRegion_hif (s : State) (i : Nat) : (s.dropRegion i).hif = s.hif := rfl
@[simp] theorem dropRegion_side (s : State) (i : Nat) : (s.dropRegion i).side = s.side := rfl
@[simp] theorem dropRegion_boot (s : State) (i : Nat) : (s.dropRegion i).boot = s.boot := rfl
@[simp] theorem dropRegion_sec (s : State) (i : Nat) : (s.dropRegion i).sec = s.sec := rfl
@[simp] theorem dropRegion_ras (s : State) (i : Nat) : (s.dropRegion i).ras = s.ras := rfl
@[simp] theorem dropRegion_time (s : State) (i : Nat) : (s.dropRegion i).time = s.time := rfl
@[simp] theorem dropRegion_timeFrac (s : State) (i : Nat) : (s.dropRegion i).timeFrac = s.timeFrac := rfl
@[simp] theorem dropRegion_freeCtr (s : State) (i : Nat) : (s.dropRegion i).freeCtr = s.freeCtr := rfl

/-! setRegions -/
@[simp] theorem setRegions_pending (s : State) (l : List Region) : (s.setRegions l).pending = s.pending := rfl
@[simp] theorem setRegions_mem (s : State) (l : List Region) : (s.setRegions l).mem = s.mem := rfl
@[simp] theorem setRegions_poison (s : State) (l : List Region) : (s.setRegions l).poison = s.poison := rfl
@[simp] theorem setRegions_hostMem (s : State) (l : List Region) : (s.setRegions l).hostMem = s.hostMem := rfl
@[simp] theorem setRegions_regs (s : State) (l : List Region) : (s.setRegions l).regs = s.regs := rfl
@[simp] theorem setRegions_cores (s : State) (l : List Region) : (s.setRegions l).cores = s.cores := rfl
@[simp] theorem setRegions_intq (s : State) (l : List Region) : (s.setRegions l).intq = s.intq := rfl
@[simp] theorem setRegions_ve (s : State) (l : List Region) : (s.setRegions l).ve = s.ve := rfl
@[simp] theorem setRegions_sets (s : State) (l : List Region) : (s.setRegions l).sets = s.sets := rfl
@[simp] theorem setRegions_ports (s : State) (l : List Region) : (s.setRegions l).ports = s.ports := rfl
@[simp] theorem setRegions_courses (s : State) (l : List Region) : (s.setRegions l).courses = s.courses := rfl
@[simp] theorem setRegions_loops (s : State) (l : List Region) : (s.setRegions l).loops = s.loops := rfl
@[simp] theorem setRegions_memc (s : State) (l : List Region) : (s.setRegions l).memc = s.memc := rfl
@[simp] theorem setRegions_power (s : State) (l : List Region) : (s.setRegions l).power = s.power := rfl
@[simp] theorem setRegions_aon (s : State) (l : List Region) : (s.setRegions l).aon = s.aon := rfl
@[simp] theorem setRegions_hif (s : State) (l : List Region) : (s.setRegions l).hif = s.hif := rfl
@[simp] theorem setRegions_side (s : State) (l : List Region) : (s.setRegions l).side = s.side := rfl
@[simp] theorem setRegions_boot (s : State) (l : List Region) : (s.setRegions l).boot = s.boot := rfl
@[simp] theorem setRegions_sec (s : State) (l : List Region) : (s.setRegions l).sec = s.sec := rfl
@[simp] theorem setRegions_ras (s : State) (l : List Region) : (s.setRegions l).ras = s.ras := rfl
@[simp] theorem setRegions_time (s : State) (l : List Region) : (s.setRegions l).time = s.time := rfl
@[simp] theorem setRegions_timeFrac (s : State) (l : List Region) : (s.setRegions l).timeFrac = s.timeFrac := rfl
@[simp] theorem setRegions_freeCtr (s : State) (l : List Region) : (s.setRegions l).freeCtr = s.freeCtr := rfl

/-! updRequest -/
@[simp] theorem updRequest_pending (s : State) (i : Nat) (f : Request → Request) : (s.updRequest i f).pending = s.pending := rfl
@[simp] theorem updRequest_mem (s : State) (i : Nat) (f : Request → Request) : (s.updRequest i f).mem = s.mem := rfl
@[simp] theorem updRequest_poison (s : State) (i : Nat) (f : Request → Request) : (s.updRequest i f).poison = s.poison := rfl
@[simp] theorem updRequest_hostMem (s : State) (i : Nat) (f : Request → Request) : (s.updRequest i f).hostMem = s.hostMem := rfl
@[simp] theorem updRequest_regs (s : State) (i : Nat) (f : Request → Request) : (s.updRequest i f).regs = s.regs := rfl
@[simp] theorem updRequest_cores (s : State) (i : Nat) (f : Request → Request) : (s.updRequest i f).cores = s.cores := rfl
@[simp] theorem updRequest_intq (s : State) (i : Nat) (f : Request → Request) : (s.updRequest i f).intq = s.intq := rfl
@[simp] theorem updRequest_ve (s : State) (i : Nat) (f : Request → Request) : (s.updRequest i f).ve = s.ve := rfl
@[simp] theorem updRequest_sets (s : State) (i : Nat) (f : Request → Request) : (s.updRequest i f).sets = s.sets := rfl
@[simp] theorem updRequest_ports (s : State) (i : Nat) (f : Request → Request) : (s.updRequest i f).ports = s.ports := rfl
@[simp] theorem updRequest_courses (s : State) (i : Nat) (f : Request → Request) : (s.updRequest i f).courses = s.courses := rfl
@[simp] theorem updRequest_loops (s : State) (i : Nat) (f : Request → Request) : (s.updRequest i f).loops = s.loops := rfl
@[simp] theorem updRequest_memc (s : State) (i : Nat) (f : Request → Request) : (s.updRequest i f).memc = s.memc := rfl
@[simp] theorem updRequest_power (s : State) (i : Nat) (f : Request → Request) : (s.updRequest i f).power = s.power := rfl
@[simp] theorem updRequest_aon (s : State) (i : Nat) (f : Request → Request) : (s.updRequest i f).aon = s.aon := rfl
@[simp] theorem updRequest_hif (s : State) (i : Nat) (f : Request → Request) : (s.updRequest i f).hif = s.hif := rfl
@[simp] theorem updRequest_side (s : State) (i : Nat) (f : Request → Request) : (s.updRequest i f).side = s.side := rfl
@[simp] theorem updRequest_boot (s : State) (i : Nat) (f : Request → Request) : (s.updRequest i f).boot = s.boot := rfl
@[simp] theorem updRequest_sec (s : State) (i : Nat) (f : Request → Request) : (s.updRequest i f).sec = s.sec := rfl
@[simp] theorem updRequest_ras (s : State) (i : Nat) (f : Request → Request) : (s.updRequest i f).ras = s.ras := rfl
@[simp] theorem updRequest_time (s : State) (i : Nat) (f : Request → Request) : (s.updRequest i f).time = s.time := rfl
@[simp] theorem updRequest_timeFrac (s : State) (i : Nat) (f : Request → Request) : (s.updRequest i f).timeFrac = s.timeFrac := rfl
@[simp] theorem updRequest_freeCtr (s : State) (i : Nat) (f : Request → Request) : (s.updRequest i f).freeCtr = s.freeCtr := rfl

/-! updRec -/
@[simp] theorem updRec_pending (s : State) (n : Nat) (f : WmRec → WmRec) : (s.updRec n f).pending = s.pending := rfl
@[simp] theorem updRec_mem (s : State) (n : Nat) (f : WmRec → WmRec) : (s.updRec n f).mem = s.mem := rfl
@[simp] theorem updRec_hostMem (s : State) (n : Nat) (f : WmRec → WmRec) : (s.updRec n f).hostMem = s.hostMem := rfl
@[simp] theorem updRec_regs (s : State) (n : Nat) (f : WmRec → WmRec) : (s.updRec n f).regs = s.regs := rfl
@[simp] theorem updRec_cores (s : State) (n : Nat) (f : WmRec → WmRec) : (s.updRec n f).cores = s.cores := rfl
@[simp] theorem updRec_intq (s : State) (n : Nat) (f : WmRec → WmRec) : (s.updRec n f).intq = s.intq := rfl
@[simp] theorem updRec_ve (s : State) (n : Nat) (f : WmRec → WmRec) : (s.updRec n f).ve = s.ve := rfl
@[simp] theorem updRec_sets (s : State) (n : Nat) (f : WmRec → WmRec) : (s.updRec n f).sets = s.sets := rfl
@[simp] theorem updRec_disp (s : State) (n : Nat) (f : WmRec → WmRec) : (s.updRec n f).disp = s.disp := rfl
@[simp] theorem updRec_ports (s : State) (n : Nat) (f : WmRec → WmRec) : (s.updRec n f).ports = s.ports := rfl
@[simp] theorem updRec_courses (s : State) (n : Nat) (f : WmRec → WmRec) : (s.updRec n f).courses = s.courses := rfl
@[simp] theorem updRec_loops (s : State) (n : Nat) (f : WmRec → WmRec) : (s.updRec n f).loops = s.loops := rfl
@[simp] theorem updRec_memc (s : State) (n : Nat) (f : WmRec → WmRec) : (s.updRec n f).memc = s.memc := rfl
@[simp] theorem updRec_power (s : State) (n : Nat) (f : WmRec → WmRec) : (s.updRec n f).power = s.power := rfl
@[simp] theorem updRec_aon (s : State) (n : Nat) (f : WmRec → WmRec) : (s.updRec n f).aon = s.aon := rfl
@[simp] theorem updRec_hif (s : State) (n : Nat) (f : WmRec → WmRec) : (s.updRec n f).hif = s.hif := rfl
@[simp] theorem updRec_side (s : State) (n : Nat) (f : WmRec → WmRec) : (s.updRec n f).side = s.side := rfl
@[simp] theorem updRec_sec (s : State) (n : Nat) (f : WmRec → WmRec) : (s.updRec n f).sec = s.sec := rfl
@[simp] theorem updRec_ras (s : State) (n : Nat) (f : WmRec → WmRec) : (s.updRec n f).ras = s.ras := rfl
@[simp] theorem updRec_time (s : State) (n : Nat) (f : WmRec → WmRec) : (s.updRec n f).time = s.time := rfl
@[simp] theorem updRec_timeFrac (s : State) (n : Nat) (f : WmRec → WmRec) : (s.updRec n f).timeFrac = s.timeFrac := rfl
@[simp] theorem updRec_freeCtr (s : State) (n : Nat) (f : WmRec → WmRec) : (s.updRec n f).freeCtr = s.freeCtr := rfl

/-! updTaken -/
@[simp] theorem updTaken_pending (s : State) (h : HostRef) (f : Taken → Taken) : (s.updTaken h f).pending = s.pending := rfl
@[simp] theorem updTaken_mem (s : State) (h : HostRef) (f : Taken → Taken) : (s.updTaken h f).mem = s.mem := rfl
@[simp] theorem updTaken_poison (s : State) (h : HostRef) (f : Taken → Taken) : (s.updTaken h f).poison = s.poison := rfl
@[simp] theorem updTaken_hostMem (s : State) (h : HostRef) (f : Taken → Taken) : (s.updTaken h f).hostMem = s.hostMem := rfl
@[simp] theorem updTaken_regs (s : State) (h : HostRef) (f : Taken → Taken) : (s.updTaken h f).regs = s.regs := rfl
@[simp] theorem updTaken_cores (s : State) (h : HostRef) (f : Taken → Taken) : (s.updTaken h f).cores = s.cores := rfl
@[simp] theorem updTaken_intq (s : State) (h : HostRef) (f : Taken → Taken) : (s.updTaken h f).intq = s.intq := rfl
@[simp] theorem updTaken_ve (s : State) (h : HostRef) (f : Taken → Taken) : (s.updTaken h f).ve = s.ve := rfl
@[simp] theorem updTaken_sets (s : State) (h : HostRef) (f : Taken → Taken) : (s.updTaken h f).sets = s.sets := rfl
@[simp] theorem updTaken_disp (s : State) (h : HostRef) (f : Taken → Taken) : (s.updTaken h f).disp = s.disp := rfl
@[simp] theorem updTaken_ports (s : State) (h : HostRef) (f : Taken → Taken) : (s.updTaken h f).ports = s.ports := rfl
@[simp] theorem updTaken_courses (s : State) (h : HostRef) (f : Taken → Taken) : (s.updTaken h f).courses = s.courses := rfl
@[simp] theorem updTaken_loops (s : State) (h : HostRef) (f : Taken → Taken) : (s.updTaken h f).loops = s.loops := rfl
@[simp] theorem updTaken_memc (s : State) (h : HostRef) (f : Taken → Taken) : (s.updTaken h f).memc = s.memc := rfl
@[simp] theorem updTaken_power (s : State) (h : HostRef) (f : Taken → Taken) : (s.updTaken h f).power = s.power := rfl
@[simp] theorem updTaken_aon (s : State) (h : HostRef) (f : Taken → Taken) : (s.updTaken h f).aon = s.aon := rfl
@[simp] theorem updTaken_side (s : State) (h : HostRef) (f : Taken → Taken) : (s.updTaken h f).side = s.side := rfl
@[simp] theorem updTaken_boot (s : State) (h : HostRef) (f : Taken → Taken) : (s.updTaken h f).boot = s.boot := rfl
@[simp] theorem updTaken_sec (s : State) (h : HostRef) (f : Taken → Taken) : (s.updTaken h f).sec = s.sec := rfl
@[simp] theorem updTaken_ras (s : State) (h : HostRef) (f : Taken → Taken) : (s.updTaken h f).ras = s.ras := rfl
@[simp] theorem updTaken_time (s : State) (h : HostRef) (f : Taken → Taken) : (s.updTaken h f).time = s.time := rfl
@[simp] theorem updTaken_timeFrac (s : State) (h : HostRef) (f : Taken → Taken) : (s.updTaken h f).timeFrac = s.timeFrac := rfl
@[simp] theorem updTaken_freeCtr (s : State) (h : HostRef) (f : Taken → Taken) : (s.updTaken h f).freeCtr = s.freeCtr := rfl

/-! begin -/
@[simp] theorem begin_pending (s : State) (h : HostRef) : (s.begin h).pending = s.pending := rfl
@[simp] theorem begin_mem (s : State) (h : HostRef) : (s.begin h).mem = s.mem := rfl
@[simp] theorem begin_poison (s : State) (h : HostRef) : (s.begin h).poison = s.poison := rfl
@[simp] theorem begin_hostMem (s : State) (h : HostRef) : (s.begin h).hostMem = s.hostMem := rfl
@[simp] theorem begin_regs (s : State) (h : HostRef) : (s.begin h).regs = s.regs := rfl
@[simp] theorem begin_cores (s : State) (h : HostRef) : (s.begin h).cores = s.cores := rfl
@[simp] theorem begin_intq (s : State) (h : HostRef) : (s.begin h).intq = s.intq := rfl
@[simp] theorem begin_ve (s : State) (h : HostRef) : (s.begin h).ve = s.ve := rfl
@[simp] theorem begin_sets (s : State) (h : HostRef) : (s.begin h).sets = s.sets := rfl
@[simp] theorem begin_disp (s : State) (h : HostRef) : (s.begin h).disp = s.disp := rfl
@[simp] theorem begin_ports (s : State) (h : HostRef) : (s.begin h).ports = s.ports := rfl
@[simp] theorem begin_courses (s : State) (h : HostRef) : (s.begin h).courses = s.courses := rfl
@[simp] theorem begin_loops (s : State) (h : HostRef) : (s.begin h).loops = s.loops := rfl
@[simp] theorem begin_memc (s : State) (h : HostRef) : (s.begin h).memc = s.memc := rfl
@[simp] theorem begin_power (s : State) (h : HostRef) : (s.begin h).power = s.power := rfl
@[simp] theorem begin_aon (s : State) (h : HostRef) : (s.begin h).aon = s.aon := rfl
@[simp] theorem begin_side (s : State) (h : HostRef) : (s.begin h).side = s.side := rfl
@[simp] theorem begin_boot (s : State) (h : HostRef) : (s.begin h).boot = s.boot := rfl
@[simp] theorem begin_sec (s : State) (h : HostRef) : (s.begin h).sec = s.sec := rfl
@[simp] theorem begin_ras (s : State) (h : HostRef) : (s.begin h).ras = s.ras := rfl
@[simp] theorem begin_time (s : State) (h : HostRef) : (s.begin h).time = s.time := rfl
@[simp] theorem begin_timeFrac (s : State) (h : HostRef) : (s.begin h).timeFrac = s.timeFrac := rfl
@[simp] theorem begin_freeCtr (s : State) (h : HostRef) : (s.begin h).freeCtr = s.freeCtr := rfl

/-! regSet -/
@[simp] theorem regSet_pending (s : State) (k v n : Nat) : (s.regSet k v n).pending = s.pending := rfl
@[simp] theorem regSet_mem (s : State) (k v n : Nat) : (s.regSet k v n).mem = s.mem := rfl
@[simp] theorem regSet_poison (s : State) (k v n : Nat) : (s.regSet k v n).poison = s.poison := rfl
@[simp] theorem regSet_hostMem (s : State) (k v n : Nat) : (s.regSet k v n).hostMem = s.hostMem := rfl
@[simp] theorem regSet_cores (s : State) (k v n : Nat) : (s.regSet k v n).cores = s.cores := rfl
@[simp] theorem regSet_intq (s : State) (k v n : Nat) : (s.regSet k v n).intq = s.intq := rfl
@[simp] theorem regSet_ve (s : State) (k v n : Nat) : (s.regSet k v n).ve = s.ve := rfl
@[simp] theorem regSet_sets (s : State) (k v n : Nat) : (s.regSet k v n).sets = s.sets := rfl
@[simp] theorem regSet_disp (s : State) (k v n : Nat) : (s.regSet k v n).disp = s.disp := rfl
@[simp] theorem regSet_ports (s : State) (k v n : Nat) : (s.regSet k v n).ports = s.ports := rfl
@[simp] theorem regSet_courses (s : State) (k v n : Nat) : (s.regSet k v n).courses = s.courses := rfl
@[simp] theorem regSet_loops (s : State) (k v n : Nat) : (s.regSet k v n).loops = s.loops := rfl
@[simp] theorem regSet_memc (s : State) (k v n : Nat) : (s.regSet k v n).memc = s.memc := rfl
@[simp] theorem regSet_power (s : State) (k v n : Nat) : (s.regSet k v n).power = s.power := rfl
@[simp] theorem regSet_aon (s : State) (k v n : Nat) : (s.regSet k v n).aon = s.aon := rfl
@[simp] theorem regSet_hif (s : State) (k v n : Nat) : (s.regSet k v n).hif = s.hif := rfl
@[simp] theorem regSet_side (s : State) (k v n : Nat) : (s.regSet k v n).side = s.side := rfl
@[simp] theorem regSet_boot (s : State) (k v n : Nat) : (s.regSet k v n).boot = s.boot := rfl
@[simp] theorem regSet_sec (s : State) (k v n : Nat) : (s.regSet k v n).sec = s.sec := rfl
@[simp] theorem regSet_ras (s : State) (k v n : Nat) : (s.regSet k v n).ras = s.ras := rfl
@[simp] theorem regSet_time (s : State) (k v n : Nat) : (s.regSet k v n).time = s.time := rfl
@[simp] theorem regSet_timeFrac (s : State) (k v n : Nat) : (s.regSet k v n).timeFrac = s.timeFrac := rfl
@[simp] theorem regSet_freeCtr (s : State) (k v n : Nat) : (s.regSet k v n).freeCtr = s.freeCtr := rfl

/-! regSetF -/
@[simp] theorem regSetF_pending (s : State) (k hi lo x n : Nat) : (s.regSetF k hi lo x n).pending = s.pending := rfl
@[simp] theorem regSetF_mem (s : State) (k hi lo x n : Nat) : (s.regSetF k hi lo x n).mem = s.mem := rfl
@[simp] theorem regSetF_poison (s : State) (k hi lo x n : Nat) : (s.regSetF k hi lo x n).poison = s.poison := rfl
@[simp] theorem regSetF_hostMem (s : State) (k hi lo x n : Nat) : (s.regSetF k hi lo x n).hostMem = s.hostMem := rfl
@[simp] theorem regSetF_cores (s : State) (k hi lo x n : Nat) : (s.regSetF k hi lo x n).cores = s.cores := rfl
@[simp] theorem regSetF_intq (s : State) (k hi lo x n : Nat) : (s.regSetF k hi lo x n).intq = s.intq := rfl
@[simp] theorem regSetF_ve (s : State) (k hi lo x n : Nat) : (s.regSetF k hi lo x n).ve = s.ve := rfl
@[simp] theorem regSetF_sets (s : State) (k hi lo x n : Nat) : (s.regSetF k hi lo x n).sets = s.sets := rfl
@[simp] theorem regSetF_disp (s : State) (k hi lo x n : Nat) : (s.regSetF k hi lo x n).disp = s.disp := rfl
@[simp] theorem regSetF_ports (s : State) (k hi lo x n : Nat) : (s.regSetF k hi lo x n).ports = s.ports := rfl
@[simp] theorem regSetF_courses (s : State) (k hi lo x n : Nat) : (s.regSetF k hi lo x n).courses = s.courses := rfl
@[simp] theorem regSetF_loops (s : State) (k hi lo x n : Nat) : (s.regSetF k hi lo x n).loops = s.loops := rfl
@[simp] theorem regSetF_memc (s : State) (k hi lo x n : Nat) : (s.regSetF k hi lo x n).memc = s.memc := rfl
@[simp] theorem regSetF_power (s : State) (k hi lo x n : Nat) : (s.regSetF k hi lo x n).power = s.power := rfl
@[simp] theorem regSetF_aon (s : State) (k hi lo x n : Nat) : (s.regSetF k hi lo x n).aon = s.aon := rfl
@[simp] theorem regSetF_hif (s : State) (k hi lo x n : Nat) : (s.regSetF k hi lo x n).hif = s.hif := rfl
@[simp] theorem regSetF_side (s : State) (k hi lo x n : Nat) : (s.regSetF k hi lo x n).side = s.side := rfl
@[simp] theorem regSetF_boot (s : State) (k hi lo x n : Nat) : (s.regSetF k hi lo x n).boot = s.boot := rfl
@[simp] theorem regSetF_sec (s : State) (k hi lo x n : Nat) : (s.regSetF k hi lo x n).sec = s.sec := rfl
@[simp] theorem regSetF_ras (s : State) (k hi lo x n : Nat) : (s.regSetF k hi lo x n).ras = s.ras := rfl
@[simp] theorem regSetF_time (s : State) (k hi lo x n : Nat) : (s.regSetF k hi lo x n).time = s.time := rfl
@[simp] theorem regSetF_timeFrac (s : State) (k hi lo x n : Nat) : (s.regSetF k hi lo x n).timeFrac = s.timeFrac := rfl
@[simp] theorem regSetF_freeCtr (s : State) (k hi lo x n : Nat) : (s.regSetF k hi lo x n).freeCtr = s.freeCtr := rfl

/-! regSatInc -/
@[simp] theorem regSatInc_pending (s : State) (k n b : Nat) : (s.regSatInc k n b).pending = s.pending := rfl
@[simp] theorem regSatInc_mem (s : State) (k n b : Nat) : (s.regSatInc k n b).mem = s.mem := rfl
@[simp] theorem regSatInc_poison (s : State) (k n b : Nat) : (s.regSatInc k n b).poison = s.poison := rfl
@[simp] theorem regSatInc_hostMem (s : State) (k n b : Nat) : (s.regSatInc k n b).hostMem = s.hostMem := rfl
@[simp] theorem regSatInc_cores (s : State) (k n b : Nat) : (s.regSatInc k n b).cores = s.cores := rfl
@[simp] theorem regSatInc_intq (s : State) (k n b : Nat) : (s.regSatInc k n b).intq = s.intq := rfl
@[simp] theorem regSatInc_ve (s : State) (k n b : Nat) : (s.regSatInc k n b).ve = s.ve := rfl
@[simp] theorem regSatInc_sets (s : State) (k n b : Nat) : (s.regSatInc k n b).sets = s.sets := rfl
@[simp] theorem regSatInc_disp (s : State) (k n b : Nat) : (s.regSatInc k n b).disp = s.disp := rfl
@[simp] theorem regSatInc_ports (s : State) (k n b : Nat) : (s.regSatInc k n b).ports = s.ports := rfl
@[simp] theorem regSatInc_courses (s : State) (k n b : Nat) : (s.regSatInc k n b).courses = s.courses := rfl
@[simp] theorem regSatInc_loops (s : State) (k n b : Nat) : (s.regSatInc k n b).loops = s.loops := rfl
@[simp] theorem regSatInc_memc (s : State) (k n b : Nat) : (s.regSatInc k n b).memc = s.memc := rfl
@[simp] theorem regSatInc_power (s : State) (k n b : Nat) : (s.regSatInc k n b).power = s.power := rfl
@[simp] theorem regSatInc_aon (s : State) (k n b : Nat) : (s.regSatInc k n b).aon = s.aon := rfl
@[simp] theorem regSatInc_hif (s : State) (k n b : Nat) : (s.regSatInc k n b).hif = s.hif := rfl
@[simp] theorem regSatInc_side (s : State) (k n b : Nat) : (s.regSatInc k n b).side = s.side := rfl
@[simp] theorem regSatInc_boot (s : State) (k n b : Nat) : (s.regSatInc k n b).boot = s.boot := rfl
@[simp] theorem regSatInc_sec (s : State) (k n b : Nat) : (s.regSatInc k n b).sec = s.sec := rfl
@[simp] theorem regSatInc_ras (s : State) (k n b : Nat) : (s.regSatInc k n b).ras = s.ras := rfl
@[simp] theorem regSatInc_time (s : State) (k n b : Nat) : (s.regSatInc k n b).time = s.time := rfl
@[simp] theorem regSatInc_timeFrac (s : State) (k n b : Nat) : (s.regSatInc k n b).timeFrac = s.timeFrac := rfl
@[simp] theorem regSatInc_freeCtr (s : State) (k n b : Nat) : (s.regSatInc k n b).freeCtr = s.freeCtr := rfl

/-! regWrapInc -/
@[simp] theorem regWrapInc_pending (s : State) (k n : Nat) : (s.regWrapInc k n).pending = s.pending := rfl
@[simp] theorem regWrapInc_mem (s : State) (k n : Nat) : (s.regWrapInc k n).mem = s.mem := rfl
@[simp] theorem regWrapInc_poison (s : State) (k n : Nat) : (s.regWrapInc k n).poison = s.poison := rfl
@[simp] theorem regWrapInc_hostMem (s : State) (k n : Nat) : (s.regWrapInc k n).hostMem = s.hostMem := rfl
@[simp] theorem regWrapInc_cores (s : State) (k n : Nat) : (s.regWrapInc k n).cores = s.cores := rfl
@[simp] theorem regWrapInc_intq (s : State) (k n : Nat) : (s.regWrapInc k n).intq = s.intq := rfl
@[simp] theorem regWrapInc_ve (s : State) (k n : Nat) : (s.regWrapInc k n).ve = s.ve := rfl
@[simp] theorem regWrapInc_sets (s : State) (k n : Nat) : (s.regWrapInc k n).sets = s.sets := rfl
@[simp] theorem regWrapInc_disp (s : State) (k n : Nat) : (s.regWrapInc k n).disp = s.disp := rfl
@[simp] theorem regWrapInc_ports (s : State) (k n : Nat) : (s.regWrapInc k n).ports = s.ports := rfl
@[simp] theorem regWrapInc_courses (s : State) (k n : Nat) : (s.regWrapInc k n).courses = s.courses := rfl
@[simp] theorem regWrapInc_loops (s : State) (k n : Nat) : (s.regWrapInc k n).loops = s.loops := rfl
@[simp] theorem regWrapInc_memc (s : State) (k n : Nat) : (s.regWrapInc k n).memc = s.memc := rfl
@[simp] theorem regWrapInc_power (s : State) (k n : Nat) : (s.regWrapInc k n).power = s.power := rfl
@[simp] theorem regWrapInc_aon (s : State) (k n : Nat) : (s.regWrapInc k n).aon = s.aon := rfl
@[simp] theorem regWrapInc_hif (s : State) (k n : Nat) : (s.regWrapInc k n).hif = s.hif := rfl
@[simp] theorem regWrapInc_side (s : State) (k n : Nat) : (s.regWrapInc k n).side = s.side := rfl
@[simp] theorem regWrapInc_boot (s : State) (k n : Nat) : (s.regWrapInc k n).boot = s.boot := rfl
@[simp] theorem regWrapInc_sec (s : State) (k n : Nat) : (s.regWrapInc k n).sec = s.sec := rfl
@[simp] theorem regWrapInc_ras (s : State) (k n : Nat) : (s.regWrapInc k n).ras = s.ras := rfl
@[simp] theorem regWrapInc_time (s : State) (k n : Nat) : (s.regWrapInc k n).time = s.time := rfl
@[simp] theorem regWrapInc_timeFrac (s : State) (k n : Nat) : (s.regWrapInc k n).timeFrac = s.timeFrac := rfl
@[simp] theorem regWrapInc_freeCtr (s : State) (k n : Nat) : (s.regWrapInc k n).freeCtr = s.freeCtr := rfl

/-! takeEffect -/
@[simp] theorem takeEffect_pending (s : State) (k n : Nat) : (s.takeEffect k n).pending = s.pending := rfl
@[simp] theorem takeEffect_mem (s : State) (k n : Nat) : (s.takeEffect k n).mem = s.mem := rfl
@[simp] theorem takeEffect_poison (s : State) (k n : Nat) : (s.takeEffect k n).poison = s.poison := rfl
@[simp] theorem takeEffect_hostMem (s : State) (k n : Nat) : (s.takeEffect k n).hostMem = s.hostMem := rfl
@[simp] theorem takeEffect_cores (s : State) (k n : Nat) : (s.takeEffect k n).cores = s.cores := rfl
@[simp] theorem takeEffect_intq (s : State) (k n : Nat) : (s.takeEffect k n).intq = s.intq := rfl
@[simp] theorem takeEffect_ve (s : State) (k n : Nat) : (s.takeEffect k n).ve = s.ve := rfl
@[simp] theorem takeEffect_sets (s : State) (k n : Nat) : (s.takeEffect k n).sets = s.sets := rfl
@[simp] theorem takeEffect_disp (s : State) (k n : Nat) : (s.takeEffect k n).disp = s.disp := rfl
@[simp] theorem takeEffect_ports (s : State) (k n : Nat) : (s.takeEffect k n).ports = s.ports := rfl
@[simp] theorem takeEffect_courses (s : State) (k n : Nat) : (s.takeEffect k n).courses = s.courses := rfl
@[simp] theorem takeEffect_loops (s : State) (k n : Nat) : (s.takeEffect k n).loops = s.loops := rfl
@[simp] theorem takeEffect_memc (s : State) (k n : Nat) : (s.takeEffect k n).memc = s.memc := rfl
@[simp] theorem takeEffect_power (s : State) (k n : Nat) : (s.takeEffect k n).power = s.power := rfl
@[simp] theorem takeEffect_aon (s : State) (k n : Nat) : (s.takeEffect k n).aon = s.aon := rfl
@[simp] theorem takeEffect_hif (s : State) (k n : Nat) : (s.takeEffect k n).hif = s.hif := rfl
@[simp] theorem takeEffect_side (s : State) (k n : Nat) : (s.takeEffect k n).side = s.side := rfl
@[simp] theorem takeEffect_boot (s : State) (k n : Nat) : (s.takeEffect k n).boot = s.boot := rfl
@[simp] theorem takeEffect_sec (s : State) (k n : Nat) : (s.takeEffect k n).sec = s.sec := rfl
@[simp] theorem takeEffect_ras (s : State) (k n : Nat) : (s.takeEffect k n).ras = s.ras := rfl
@[simp] theorem takeEffect_time (s : State) (k n : Nat) : (s.takeEffect k n).time = s.time := rfl
@[simp] theorem takeEffect_timeFrac (s : State) (k n : Nat) : (s.takeEffect k n).timeFrac = s.timeFrac := rfl
@[simp] theorem takeEffect_freeCtr (s : State) (k n : Nat) : (s.takeEffect k n).freeCtr = s.freeCtr := rfl

/-! memSet -/
@[simp] theorem memSet_pending (s : State) (k : Nat) (v : Word) : (memSet s k v).pending = s.pending := rfl
@[simp] theorem memSet_poison (s : State) (k : Nat) (v : Word) : (memSet s k v).poison = s.poison := rfl
@[simp] theorem memSet_hostMem (s : State) (k : Nat) (v : Word) : (memSet s k v).hostMem = s.hostMem := rfl
@[simp] theorem memSet_regs (s : State) (k : Nat) (v : Word) : (memSet s k v).regs = s.regs := rfl
@[simp] theorem memSet_cores (s : State) (k : Nat) (v : Word) : (memSet s k v).cores = s.cores := rfl
@[simp] theorem memSet_intq (s : State) (k : Nat) (v : Word) : (memSet s k v).intq = s.intq := rfl
@[simp] theorem memSet_ve (s : State) (k : Nat) (v : Word) : (memSet s k v).ve = s.ve := rfl
@[simp] theorem memSet_sets (s : State) (k : Nat) (v : Word) : (memSet s k v).sets = s.sets := rfl
@[simp] theorem memSet_disp (s : State) (k : Nat) (v : Word) : (memSet s k v).disp = s.disp := rfl
@[simp] theorem memSet_ports (s : State) (k : Nat) (v : Word) : (memSet s k v).ports = s.ports := rfl
@[simp] theorem memSet_courses (s : State) (k : Nat) (v : Word) : (memSet s k v).courses = s.courses := rfl
@[simp] theorem memSet_loops (s : State) (k : Nat) (v : Word) : (memSet s k v).loops = s.loops := rfl
@[simp] theorem memSet_memc (s : State) (k : Nat) (v : Word) : (memSet s k v).memc = s.memc := rfl
@[simp] theorem memSet_power (s : State) (k : Nat) (v : Word) : (memSet s k v).power = s.power := rfl
@[simp] theorem memSet_aon (s : State) (k : Nat) (v : Word) : (memSet s k v).aon = s.aon := rfl
@[simp] theorem memSet_hif (s : State) (k : Nat) (v : Word) : (memSet s k v).hif = s.hif := rfl
@[simp] theorem memSet_side (s : State) (k : Nat) (v : Word) : (memSet s k v).side = s.side := rfl
@[simp] theorem memSet_boot (s : State) (k : Nat) (v : Word) : (memSet s k v).boot = s.boot := rfl
@[simp] theorem memSet_sec (s : State) (k : Nat) (v : Word) : (memSet s k v).sec = s.sec := rfl
@[simp] theorem memSet_ras (s : State) (k : Nat) (v : Word) : (memSet s k v).ras = s.ras := rfl
@[simp] theorem memSet_time (s : State) (k : Nat) (v : Word) : (memSet s k v).time = s.time := rfl
@[simp] theorem memSet_timeFrac (s : State) (k : Nat) (v : Word) : (memSet s k v).timeFrac = s.timeFrac := rfl
@[simp] theorem memSet_freeCtr (s : State) (k : Nat) (v : Word) : (memSet s k v).freeCtr = s.freeCtr := rfl

/-! poisonAt -/
@[simp] theorem poisonAt_pending (s : State) (k : Nat) : (poisonAt s k).pending = s.pending := rfl
@[simp] theorem poisonAt_mem (s : State) (k : Nat) : (poisonAt s k).mem = s.mem := rfl
@[simp] theorem poisonAt_hostMem (s : State) (k : Nat) : (poisonAt s k).hostMem = s.hostMem := rfl
@[simp] theorem poisonAt_regs (s : State) (k : Nat) : (poisonAt s k).regs = s.regs := rfl
@[simp] theorem poisonAt_cores (s : State) (k : Nat) : (poisonAt s k).cores = s.cores := rfl
@[simp] theorem poisonAt_intq (s : State) (k : Nat) : (poisonAt s k).intq = s.intq := rfl
@[simp] theorem poisonAt_ve (s : State) (k : Nat) : (poisonAt s k).ve = s.ve := rfl
@[simp] theorem poisonAt_sets (s : State) (k : Nat) : (poisonAt s k).sets = s.sets := rfl
@[simp] theorem poisonAt_disp (s : State) (k : Nat) : (poisonAt s k).disp = s.disp := rfl
@[simp] theorem poisonAt_ports (s : State) (k : Nat) : (poisonAt s k).ports = s.ports := rfl
@[simp] theorem poisonAt_courses (s : State) (k : Nat) : (poisonAt s k).courses = s.courses := rfl
@[simp] theorem poisonAt_loops (s : State) (k : Nat) : (poisonAt s k).loops = s.loops := rfl
@[simp] theorem poisonAt_memc (s : State) (k : Nat) : (poisonAt s k).memc = s.memc := rfl
@[simp] theorem poisonAt_power (s : State) (k : Nat) : (poisonAt s k).power = s.power := rfl
@[simp] theorem poisonAt_aon (s : State) (k : Nat) : (poisonAt s k).aon = s.aon := rfl
@[simp] theorem poisonAt_hif (s : State) (k : Nat) : (poisonAt s k).hif = s.hif := rfl
@[simp] theorem poisonAt_side (s : State) (k : Nat) : (poisonAt s k).side = s.side := rfl
@[simp] theorem poisonAt_boot (s : State) (k : Nat) : (poisonAt s k).boot = s.boot := rfl
@[simp] theorem poisonAt_sec (s : State) (k : Nat) : (poisonAt s k).sec = s.sec := rfl
@[simp] theorem poisonAt_ras (s : State) (k : Nat) : (poisonAt s k).ras = s.ras := rfl
@[simp] theorem poisonAt_time (s : State) (k : Nat) : (poisonAt s k).time = s.time := rfl
@[simp] theorem poisonAt_timeFrac (s : State) (k : Nat) : (poisonAt s k).timeFrac = s.timeFrac := rfl
@[simp] theorem poisonAt_freeCtr (s : State) (k : Nat) : (poisonAt s k).freeCtr = s.freeCtr := rfl

/-! clearPoison -/
@[simp] theorem clearPoison_pending (s : State) (k n : Nat) : (clearPoison s k n).pending = s.pending := rfl
@[simp] theorem clearPoison_mem (s : State) (k n : Nat) : (clearPoison s k n).mem = s.mem := rfl
@[simp] theorem clearPoison_hostMem (s : State) (k n : Nat) : (clearPoison s k n).hostMem = s.hostMem := rfl
@[simp] theorem clearPoison_regs (s : State) (k n : Nat) : (clearPoison s k n).regs = s.regs := rfl
@[simp] theorem clearPoison_cores (s : State) (k n : Nat) : (clearPoison s k n).cores = s.cores := rfl
@[simp] theorem clearPoison_intq (s : State) (k n : Nat) : (clearPoison s k n).intq = s.intq := rfl
@[simp] theorem clearPoison_ve (s : State) (k n : Nat) : (clearPoison s k n).ve = s.ve := rfl
@[simp] theorem clearPoison_sets (s : State) (k n : Nat) : (clearPoison s k n).sets = s.sets := rfl
@[simp] theorem clearPoison_disp (s : State) (k n : Nat) : (clearPoison s k n).disp = s.disp := rfl
@[simp] theorem clearPoison_ports (s : State) (k n : Nat) : (clearPoison s k n).ports = s.ports := rfl
@[simp] theorem clearPoison_courses (s : State) (k n : Nat) : (clearPoison s k n).courses = s.courses := rfl
@[simp] theorem clearPoison_loops (s : State) (k n : Nat) : (clearPoison s k n).loops = s.loops := rfl
@[simp] theorem clearPoison_memc (s : State) (k n : Nat) : (clearPoison s k n).memc = s.memc := rfl
@[simp] theorem clearPoison_power (s : State) (k n : Nat) : (clearPoison s k n).power = s.power := rfl
@[simp] theorem clearPoison_aon (s : State) (k n : Nat) : (clearPoison s k n).aon = s.aon := rfl
@[simp] theorem clearPoison_hif (s : State) (k n : Nat) : (clearPoison s k n).hif = s.hif := rfl
@[simp] theorem clearPoison_side (s : State) (k n : Nat) : (clearPoison s k n).side = s.side := rfl
@[simp] theorem clearPoison_boot (s : State) (k n : Nat) : (clearPoison s k n).boot = s.boot := rfl
@[simp] theorem clearPoison_sec (s : State) (k n : Nat) : (clearPoison s k n).sec = s.sec := rfl
@[simp] theorem clearPoison_ras (s : State) (k n : Nat) : (clearPoison s k n).ras = s.ras := rfl
@[simp] theorem clearPoison_time (s : State) (k n : Nat) : (clearPoison s k n).time = s.time := rfl
@[simp] theorem clearPoison_timeFrac (s : State) (k n : Nat) : (clearPoison s k n).timeFrac = s.timeFrac := rfl
@[simp] theorem clearPoison_freeCtr (s : State) (k n : Nat) : (clearPoison s k n).freeCtr = s.freeCtr := rfl

/-! hostWrite -/
@[simp] theorem hostWrite_pending (s : State) (a : Nat) (bs : List Byte) : (hostWrite s a bs).pending = s.pending := rfl
@[simp] theorem hostWrite_mem (s : State) (a : Nat) (bs : List Byte) : (hostWrite s a bs).mem = s.mem := rfl
@[simp] theorem hostWrite_poison (s : State) (a : Nat) (bs : List Byte) : (hostWrite s a bs).poison = s.poison := rfl
@[simp] theorem hostWrite_regs (s : State) (a : Nat) (bs : List Byte) : (hostWrite s a bs).regs = s.regs := rfl
@[simp] theorem hostWrite_cores (s : State) (a : Nat) (bs : List Byte) : (hostWrite s a bs).cores = s.cores := rfl
@[simp] theorem hostWrite_intq (s : State) (a : Nat) (bs : List Byte) : (hostWrite s a bs).intq = s.intq := rfl
@[simp] theorem hostWrite_ve (s : State) (a : Nat) (bs : List Byte) : (hostWrite s a bs).ve = s.ve := rfl
@[simp] theorem hostWrite_sets (s : State) (a : Nat) (bs : List Byte) : (hostWrite s a bs).sets = s.sets := rfl
@[simp] theorem hostWrite_disp (s : State) (a : Nat) (bs : List Byte) : (hostWrite s a bs).disp = s.disp := rfl
@[simp] theorem hostWrite_ports (s : State) (a : Nat) (bs : List Byte) : (hostWrite s a bs).ports = s.ports := rfl
@[simp] theorem hostWrite_courses (s : State) (a : Nat) (bs : List Byte) : (hostWrite s a bs).courses = s.courses := rfl
@[simp] theorem hostWrite_loops (s : State) (a : Nat) (bs : List Byte) : (hostWrite s a bs).loops = s.loops := rfl
@[simp] theorem hostWrite_memc (s : State) (a : Nat) (bs : List Byte) : (hostWrite s a bs).memc = s.memc := rfl
@[simp] theorem hostWrite_power (s : State) (a : Nat) (bs : List Byte) : (hostWrite s a bs).power = s.power := rfl
@[simp] theorem hostWrite_aon (s : State) (a : Nat) (bs : List Byte) : (hostWrite s a bs).aon = s.aon := rfl
@[simp] theorem hostWrite_hif (s : State) (a : Nat) (bs : List Byte) : (hostWrite s a bs).hif = s.hif := rfl
@[simp] theorem hostWrite_side (s : State) (a : Nat) (bs : List Byte) : (hostWrite s a bs).side = s.side := rfl
@[simp] theorem hostWrite_boot (s : State) (a : Nat) (bs : List Byte) : (hostWrite s a bs).boot = s.boot := rfl
@[simp] theorem hostWrite_sec (s : State) (a : Nat) (bs : List Byte) : (hostWrite s a bs).sec = s.sec := rfl
@[simp] theorem hostWrite_ras (s : State) (a : Nat) (bs : List Byte) : (hostWrite s a bs).ras = s.ras := rfl
@[simp] theorem hostWrite_time (s : State) (a : Nat) (bs : List Byte) : (hostWrite s a bs).time = s.time := rfl
@[simp] theorem hostWrite_timeFrac (s : State) (a : Nat) (bs : List Byte) : (hostWrite s a bs).timeFrac = s.timeFrac := rfl
@[simp] theorem hostWrite_freeCtr (s : State) (a : Nat) (bs : List Byte) : (hostWrite s a bs).freeCtr = s.freeCtr := rfl

/-! raiseInt -/
@[simp] theorem raiseInt_pending (s : State) (role cause info addr : Nat) : (raiseInt s role cause info addr).pending = s.pending := rfl
@[simp] theorem raiseInt_mem (s : State) (role cause info addr : Nat) : (raiseInt s role cause info addr).mem = s.mem := rfl
@[simp] theorem raiseInt_poison (s : State) (role cause info addr : Nat) : (raiseInt s role cause info addr).poison = s.poison := rfl
@[simp] theorem raiseInt_hostMem (s : State) (role cause info addr : Nat) : (raiseInt s role cause info addr).hostMem = s.hostMem := rfl
@[simp] theorem raiseInt_regs (s : State) (role cause info addr : Nat) : (raiseInt s role cause info addr).regs = s.regs := rfl
@[simp] theorem raiseInt_cores (s : State) (role cause info addr : Nat) : (raiseInt s role cause info addr).cores = s.cores := rfl
@[simp] theorem raiseInt_ve (s : State) (role cause info addr : Nat) : (raiseInt s role cause info addr).ve = s.ve := rfl
@[simp] theorem raiseInt_sets (s : State) (role cause info addr : Nat) : (raiseInt s role cause info addr).sets = s.sets := rfl
@[simp] theorem raiseInt_disp (s : State) (role cause info addr : Nat) : (raiseInt s role cause info addr).disp = s.disp := rfl
@[simp] theorem raiseInt_ports (s : State) (role cause info addr : Nat) : (raiseInt s role cause info addr).ports = s.ports := rfl
@[simp] theorem raiseInt_courses (s : State) (role cause info addr : Nat) : (raiseInt s role cause info addr).courses = s.courses := rfl
@[simp] theorem raiseInt_loops (s : State) (role cause info addr : Nat) : (raiseInt s role cause info addr).loops = s.loops := rfl
@[simp] theorem raiseInt_memc (s : State) (role cause info addr : Nat) : (raiseInt s role cause info addr).memc = s.memc := rfl
@[simp] theorem raiseInt_power (s : State) (role cause info addr : Nat) : (raiseInt s role cause info addr).power = s.power := rfl
@[simp] theorem raiseInt_aon (s : State) (role cause info addr : Nat) : (raiseInt s role cause info addr).aon = s.aon := rfl
@[simp] theorem raiseInt_hif (s : State) (role cause info addr : Nat) : (raiseInt s role cause info addr).hif = s.hif := rfl
@[simp] theorem raiseInt_side (s : State) (role cause info addr : Nat) : (raiseInt s role cause info addr).side = s.side := rfl
@[simp] theorem raiseInt_boot (s : State) (role cause info addr : Nat) : (raiseInt s role cause info addr).boot = s.boot := rfl
@[simp] theorem raiseInt_sec (s : State) (role cause info addr : Nat) : (raiseInt s role cause info addr).sec = s.sec := rfl
@[simp] theorem raiseInt_ras (s : State) (role cause info addr : Nat) : (raiseInt s role cause info addr).ras = s.ras := rfl
@[simp] theorem raiseInt_time (s : State) (role cause info addr : Nat) : (raiseInt s role cause info addr).time = s.time := rfl
@[simp] theorem raiseInt_timeFrac (s : State) (role cause info addr : Nat) : (raiseInt s role cause info addr).timeFrac = s.timeFrac := rfl
@[simp] theorem raiseInt_freeCtr (s : State) (role cause info addr : Nat) : (raiseInt s role cause info addr).freeCtr = s.freeCtr := rfl

/-! raiseClass -/
@[simp] theorem raiseClass_pending (s : State) (cause info : Nat) : (raiseClass s cause info).pending = s.pending := rfl
@[simp] theorem raiseClass_mem (s : State) (cause info : Nat) : (raiseClass s cause info).mem = s.mem := rfl
@[simp] theorem raiseClass_poison (s : State) (cause info : Nat) : (raiseClass s cause info).poison = s.poison := rfl
@[simp] theorem raiseClass_hostMem (s : State) (cause info : Nat) : (raiseClass s cause info).hostMem = s.hostMem := rfl
@[simp] theorem raiseClass_regs (s : State) (cause info : Nat) : (raiseClass s cause info).regs = s.regs := rfl
@[simp] theorem raiseClass_cores (s : State) (cause info : Nat) : (raiseClass s cause info).cores = s.cores := rfl
@[simp] theorem raiseClass_ve (s : State) (cause info : Nat) : (raiseClass s cause info).ve = s.ve := rfl
@[simp] theorem raiseClass_sets (s : State) (cause info : Nat) : (raiseClass s cause info).sets = s.sets := rfl
@[simp] theorem raiseClass_disp (s : State) (cause info : Nat) : (raiseClass s cause info).disp = s.disp := rfl
@[simp] theorem raiseClass_ports (s : State) (cause info : Nat) : (raiseClass s cause info).ports = s.ports := rfl
@[simp] theorem raiseClass_courses (s : State) (cause info : Nat) : (raiseClass s cause info).courses = s.courses := rfl
@[simp] theorem raiseClass_loops (s : State) (cause info : Nat) : (raiseClass s cause info).loops = s.loops := rfl
@[simp] theorem raiseClass_memc (s : State) (cause info : Nat) : (raiseClass s cause info).memc = s.memc := rfl
@[simp] theorem raiseClass_power (s : State) (cause info : Nat) : (raiseClass s cause info).power = s.power := rfl
@[simp] theorem raiseClass_aon (s : State) (cause info : Nat) : (raiseClass s cause info).aon = s.aon := rfl
@[simp] theorem raiseClass_hif (s : State) (cause info : Nat) : (raiseClass s cause info).hif = s.hif := rfl
@[simp] theorem raiseClass_side (s : State) (cause info : Nat) : (raiseClass s cause info).side = s.side := rfl
@[simp] theorem raiseClass_boot (s : State) (cause info : Nat) : (raiseClass s cause info).boot = s.boot := rfl
@[simp] theorem raiseClass_sec (s : State) (cause info : Nat) : (raiseClass s cause info).sec = s.sec := rfl
@[simp] theorem raiseClass_ras (s : State) (cause info : Nat) : (raiseClass s cause info).ras = s.ras := rfl
@[simp] theorem raiseClass_time (s : State) (cause info : Nat) : (raiseClass s cause info).time = s.time := rfl
@[simp] theorem raiseClass_timeFrac (s : State) (cause info : Nat) : (raiseClass s cause info).timeFrac = s.timeFrac := rfl
@[simp] theorem raiseClass_freeCtr (s : State) (cause info : Nat) : (raiseClass s cause info).freeCtr = s.freeCtr := rfl

/-! raiseRas -/
@[simp] theorem raiseRas_pending (s : State) (reason role : Nat) : (raiseRas s reason role).pending = s.pending := rfl
@[simp] theorem raiseRas_mem (s : State) (reason role : Nat) : (raiseRas s reason role).mem = s.mem := rfl
@[simp] theorem raiseRas_poison (s : State) (reason role : Nat) : (raiseRas s reason role).poison = s.poison := rfl
@[simp] theorem raiseRas_hostMem (s : State) (reason role : Nat) : (raiseRas s reason role).hostMem = s.hostMem := rfl
@[simp] theorem raiseRas_regs (s : State) (reason role : Nat) : (raiseRas s reason role).regs = s.regs := rfl
@[simp] theorem raiseRas_cores (s : State) (reason role : Nat) : (raiseRas s reason role).cores = s.cores := rfl
@[simp] theorem raiseRas_ve (s : State) (reason role : Nat) : (raiseRas s reason role).ve = s.ve := rfl
@[simp] theorem raiseRas_sets (s : State) (reason role : Nat) : (raiseRas s reason role).sets = s.sets := rfl
@[simp] theorem raiseRas_disp (s : State) (reason role : Nat) : (raiseRas s reason role).disp = s.disp := rfl
@[simp] theorem raiseRas_ports (s : State) (reason role : Nat) : (raiseRas s reason role).ports = s.ports := rfl
@[simp] theorem raiseRas_courses (s : State) (reason role : Nat) : (raiseRas s reason role).courses = s.courses := rfl
@[simp] theorem raiseRas_loops (s : State) (reason role : Nat) : (raiseRas s reason role).loops = s.loops := rfl
@[simp] theorem raiseRas_memc (s : State) (reason role : Nat) : (raiseRas s reason role).memc = s.memc := rfl
@[simp] theorem raiseRas_power (s : State) (reason role : Nat) : (raiseRas s reason role).power = s.power := rfl
@[simp] theorem raiseRas_aon (s : State) (reason role : Nat) : (raiseRas s reason role).aon = s.aon := rfl
@[simp] theorem raiseRas_hif (s : State) (reason role : Nat) : (raiseRas s reason role).hif = s.hif := rfl
@[simp] theorem raiseRas_side (s : State) (reason role : Nat) : (raiseRas s reason role).side = s.side := rfl
@[simp] theorem raiseRas_boot (s : State) (reason role : Nat) : (raiseRas s reason role).boot = s.boot := rfl
@[simp] theorem raiseRas_sec (s : State) (reason role : Nat) : (raiseRas s reason role).sec = s.sec := rfl
@[simp] theorem raiseRas_ras (s : State) (reason role : Nat) : (raiseRas s reason role).ras = s.ras := rfl
@[simp] theorem raiseRas_time (s : State) (reason role : Nat) : (raiseRas s reason role).time = s.time := rfl
@[simp] theorem raiseRas_timeFrac (s : State) (reason role : Nat) : (raiseRas s reason role).timeFrac = s.timeFrac := rfl
@[simp] theorem raiseRas_freeCtr (s : State) (reason role : Nat) : (raiseRas s reason role).freeCtr = s.freeCtr := rfl

/-! alertLow -/
@[simp] theorem alertLow_pending (s : State) : (alertLow s).pending = s.pending := rfl
@[simp] theorem alertLow_mem (s : State) : (alertLow s).mem = s.mem := rfl
@[simp] theorem alertLow_poison (s : State) : (alertLow s).poison = s.poison := rfl
@[simp] theorem alertLow_hostMem (s : State) : (alertLow s).hostMem = s.hostMem := rfl
@[simp] theorem alertLow_regs (s : State) : (alertLow s).regs = s.regs := rfl
@[simp] theorem alertLow_cores (s : State) : (alertLow s).cores = s.cores := rfl
@[simp] theorem alertLow_intq (s : State) : (alertLow s).intq = s.intq := rfl
@[simp] theorem alertLow_ve (s : State) : (alertLow s).ve = s.ve := rfl
@[simp] theorem alertLow_sets (s : State) : (alertLow s).sets = s.sets := rfl
@[simp] theorem alertLow_disp (s : State) : (alertLow s).disp = s.disp := rfl
@[simp] theorem alertLow_ports (s : State) : (alertLow s).ports = s.ports := rfl
@[simp] theorem alertLow_courses (s : State) : (alertLow s).courses = s.courses := rfl
@[simp] theorem alertLow_loops (s : State) : (alertLow s).loops = s.loops := rfl
@[simp] theorem alertLow_memc (s : State) : (alertLow s).memc = s.memc := rfl
@[simp] theorem alertLow_power (s : State) : (alertLow s).power = s.power := rfl
@[simp] theorem alertLow_aon (s : State) : (alertLow s).aon = s.aon := rfl
@[simp] theorem alertLow_hif (s : State) : (alertLow s).hif = s.hif := rfl
@[simp] theorem alertLow_boot (s : State) : (alertLow s).boot = s.boot := rfl
@[simp] theorem alertLow_sec (s : State) : (alertLow s).sec = s.sec := rfl
@[simp] theorem alertLow_ras (s : State) : (alertLow s).ras = s.ras := rfl
@[simp] theorem alertLow_time (s : State) : (alertLow s).time = s.time := rfl
@[simp] theorem alertLow_timeFrac (s : State) : (alertLow s).timeFrac = s.timeFrac := rfl
@[simp] theorem alertLow_freeCtr (s : State) : (alertLow s).freeCtr = s.freeCtr := rfl

/-! setLastOrd -/
@[simp] theorem setLastOrd_pending (s : State) (v : Byte) : (setLastOrd s v).pending = s.pending := rfl
@[simp] theorem setLastOrd_mem (s : State) (v : Byte) : (setLastOrd s v).mem = s.mem := rfl
@[simp] theorem setLastOrd_poison (s : State) (v : Byte) : (setLastOrd s v).poison = s.poison := rfl
@[simp] theorem setLastOrd_hostMem (s : State) (v : Byte) : (setLastOrd s v).hostMem = s.hostMem := rfl
@[simp] theorem setLastOrd_regs (s : State) (v : Byte) : (setLastOrd s v).regs = s.regs := rfl
@[simp] theorem setLastOrd_cores (s : State) (v : Byte) : (setLastOrd s v).cores = s.cores := rfl
@[simp] theorem setLastOrd_intq (s : State) (v : Byte) : (setLastOrd s v).intq = s.intq := rfl
@[simp] theorem setLastOrd_ve (s : State) (v : Byte) : (setLastOrd s v).ve = s.ve := rfl
@[simp] theorem setLastOrd_sets (s : State) (v : Byte) : (setLastOrd s v).sets = s.sets := rfl
@[simp] theorem setLastOrd_disp (s : State) (v : Byte) : (setLastOrd s v).disp = s.disp := rfl
@[simp] theorem setLastOrd_ports (s : State) (v : Byte) : (setLastOrd s v).ports = s.ports := rfl
@[simp] theorem setLastOrd_courses (s : State) (v : Byte) : (setLastOrd s v).courses = s.courses := rfl
@[simp] theorem setLastOrd_loops (s : State) (v : Byte) : (setLastOrd s v).loops = s.loops := rfl
@[simp] theorem setLastOrd_memc (s : State) (v : Byte) : (setLastOrd s v).memc = s.memc := rfl
@[simp] theorem setLastOrd_power (s : State) (v : Byte) : (setLastOrd s v).power = s.power := rfl
@[simp] theorem setLastOrd_aon (s : State) (v : Byte) : (setLastOrd s v).aon = s.aon := rfl
@[simp] theorem setLastOrd_hif (s : State) (v : Byte) : (setLastOrd s v).hif = s.hif := rfl
@[simp] theorem setLastOrd_boot (s : State) (v : Byte) : (setLastOrd s v).boot = s.boot := rfl
@[simp] theorem setLastOrd_sec (s : State) (v : Byte) : (setLastOrd s v).sec = s.sec := rfl
@[simp] theorem setLastOrd_ras (s : State) (v : Byte) : (setLastOrd s v).ras = s.ras := rfl
@[simp] theorem setLastOrd_time (s : State) (v : Byte) : (setLastOrd s v).time = s.time := rfl
@[simp] theorem setLastOrd_timeFrac (s : State) (v : Byte) : (setLastOrd s v).timeFrac = s.timeFrac := rfl
@[simp] theorem setLastOrd_freeCtr (s : State) (v : Byte) : (setLastOrd s v).freeCtr = s.freeCtr := rfl

/-! What an update leaves in the element that it names, and in the others -/

theorem getD_modify {α : Type} (l : List α) (i j : Nat) (f : α → α) (x : α) (h : i < l.length) : (l.modify i f).getD j x = if j = i then f (l.getD i x) else l.getD j x := by
  simp only [List.getD_eq_getElem?_getD, List.getElem?_modify]
  by_cases e : i = j
  · subst e; simp [List.getElem?_eq_getElem h]
  · have : ¬ j = i := fun h => e h.symm
    simp [e, this]

@[simp] theorem updPort_port (s : State) (p q : Nat) (f : Port → Port) (h : p < s.ports.length) : (s.updPort p f).port q = if q = p then f (s.port p) else s.port q := getD_modify _ _ _ _ _ h
@[simp] theorem updCourse_course (s : State) (c d : Nat) (f : Course → Course) (h : c < s.courses.length) : (s.updCourse c f).course d = if d = c then f (s.course c) else s.course d := getD_modify _ _ _ _ _ h
@[simp] theorem updRing_ring (s : State) (r q : Nat) (f : Ring → Ring) (h : r < s.hif.rings.length) : (s.updRing r f).ring q = if q = r then f (s.ring r) else s.ring q := getD_modify _ _ _ _ _ h
@[simp] theorem updQueue_queue (s : State) (q r : Nat) (f : VQueue → VQueue) (h : q < s.ve.queues.length) : (s.updQueue q f).queue r = if r = q then f (s.queue q) else s.queue r := getD_modify _ _ _ _ _ h
@[simp] theorem updRec_wmRec (s : State) (n m : Nat) (f : WmRec → WmRec) (h : n < s.boot.recs.length) : (s.updRec n f).wmRec m = if m = n then f (s.wmRec n) else s.wmRec m := getD_modify _ _ _ _ _ h

@[simp] theorem updPort_length (s : State) (p : Nat) (f : Port → Port) : (s.updPort p f).ports.length = s.ports.length := List.length_modify ..
@[simp] theorem updCourse_length (s : State) (c : Nat) (f : Course → Course) : (s.updCourse c f).courses.length = s.courses.length := List.length_modify ..
@[simp] theorem updRing_length (s : State) (r : Nat) (f : Ring → Ring) : (s.updRing r f).hif.rings.length = s.hif.rings.length := List.length_modify ..
@[simp] theorem updQueue_length (s : State) (q : Nat) (f : VQueue → VQueue) : (s.updQueue q f).ve.queues.length = s.ve.queues.length := List.length_modify ..

end Sys2Proof.Machine
end

