-- ==== Sys2Proof/Laws/Events.lean ====
section
/-! SUPPORT. What the shared operations of events, vectors, audits and completions can do: none touches more than the fields of Quiet. -/
namespace Sys2Proof.Machine
open Sys2Proof

/-- What events, vectors, audits and completions may touch: the RAS block, the side lane, the host interface and its memory, registers, and pending interrupts. -/
def Quiet (s t : State) : Prop := ∃ r sd h m g q, t = { s with ras := r, side := sd, hif := h, hostMem := m, regs := g, intq := q }

theorem Quiet.refl (s : State) : Quiet s s := ⟨s.ras, s.side, s.hif, s.hostMem, s.regs, s.intq, rfl⟩

theorem Quiet.trans {s t u : State} (a : Quiet s t) (b : Quiet t u) : Quiet s u := by
  obtain ⟨r, sd, h, m, g, q, rfl⟩ := a
  obtain ⟨r', sd', h', m', g', q', rfl⟩ := b
  exact ⟨r', sd', h', m', g', q', rfl⟩

theorem Quiet.pending {s t : State} (h : Quiet s t) : t.pending = s.pending := by obtain ⟨_, _, _, _, _, _, rfl⟩ := h; rfl
theorem Quiet.mem {s t : State} (h : Quiet s t) : t.mem = s.mem := by obtain ⟨_, _, _, _, _, _, rfl⟩ := h; rfl
theorem Quiet.poison {s t : State} (h : Quiet s t) : t.poison = s.poison := by obtain ⟨_, _, _, _, _, _, rfl⟩ := h; rfl
theorem Quiet.cores {s t : State} (h : Quiet s t) : t.cores = s.cores := by obtain ⟨_, _, _, _, _, _, rfl⟩ := h; rfl
theorem Quiet.ve {s t : State} (h : Quiet s t) : t.ve = s.ve := by obtain ⟨_, _, _, _, _, _, rfl⟩ := h; rfl
theorem Quiet.sets {s t : State} (h : Quiet s t) : t.sets = s.sets := by obtain ⟨_, _, _, _, _, _, rfl⟩ := h; rfl
theorem Quiet.disp {s t : State} (h : Quiet s t) : t.disp = s.disp := by obtain ⟨_, _, _, _, _, _, rfl⟩ := h; rfl
theorem Quiet.ports {s t : State} (h : Quiet s t) : t.ports = s.ports := by obtain ⟨_, _, _, _, _, _, rfl⟩ := h; rfl
theorem Quiet.courses {s t : State} (h : Quiet s t) : t.courses = s.courses := by obtain ⟨_, _, _, _, _, _, rfl⟩ := h; rfl
theorem Quiet.loops {s t : State} (h : Quiet s t) : t.loops = s.loops := by obtain ⟨_, _, _, _, _, _, rfl⟩ := h; rfl
theorem Quiet.memc {s t : State} (h : Quiet s t) : t.memc = s.memc := by obtain ⟨_, _, _, _, _, _, rfl⟩ := h; rfl
theorem Quiet.power {s t : State} (h : Quiet s t) : t.power = s.power := by obtain ⟨_, _, _, _, _, _, rfl⟩ := h; rfl
theorem Quiet.aon {s t : State} (h : Quiet s t) : t.aon = s.aon := by obtain ⟨_, _, _, _, _, _, rfl⟩ := h; rfl
theorem Quiet.boot {s t : State} (h : Quiet s t) : t.boot = s.boot := by obtain ⟨_, _, _, _, _, _, rfl⟩ := h; rfl
theorem Quiet.sec {s t : State} (h : Quiet s t) : t.sec = s.sec := by obtain ⟨_, _, _, _, _, _, rfl⟩ := h; rfl
theorem Quiet.time {s t : State} (h : Quiet s t) : t.time = s.time := by obtain ⟨_, _, _, _, _, _, rfl⟩ := h; rfl
theorem Quiet.timeFrac {s t : State} (h : Quiet s t) : t.timeFrac = s.timeFrac := by obtain ⟨_, _, _, _, _, _, rfl⟩ := h; rfl
theorem Quiet.freeCtr {s t : State} (h : Quiet s t) : t.freeCtr = s.freeCtr := by obtain ⟨_, _, _, _, _, _, rfl⟩ := h; rfl

theorem quiet_updRing (s : State) (r : Nat) (f : Ring → Ring) : Quiet s (s.updRing r f) := ⟨s.ras, s.side, _, s.hostMem, s.regs, s.intq, rfl⟩
theorem quiet_hif (s : State) (h : Hif) : Quiet s { s with hif := h } := ⟨s.ras, s.side, h, s.hostMem, s.regs, s.intq, rfl⟩
theorem quiet_hostWrite (s : State) (a : Nat) (bs : List Byte) : Quiet s (hostWrite s a bs) := ⟨s.ras, s.side, s.hif, _, s.regs, s.intq, rfl⟩
theorem quiet_alertLow (s : State) : Quiet s (alertLow s) := ⟨s.ras, _, s.hif, s.hostMem, s.regs, s.intq, rfl⟩
theorem quiet_raiseInt (s : State) (role cause info addr : Nat) : Quiet s (raiseInt s role cause info addr) := ⟨s.ras, s.side, s.hif, s.hostMem, s.regs, _, rfl⟩
theorem quiet_regSetF (s : State) (k hi lo x n : Nat) : Quiet s (s.regSetF k hi lo x n) := ⟨s.ras, s.side, s.hif, s.hostMem, _, s.intq, rfl⟩
theorem quiet_regSatInc (s : State) (k n b : Nat) : Quiet s (s.regSatInc k n b) := ⟨s.ras, s.side, s.hif, s.hostMem, _, s.intq, rfl⟩

/-- A signalled vector writes its message to host memory, or sets its pending bit (R364, R375). -/
theorem quiet_signalVec (s : State) (v : Nat) : Quiet s (signalVec s v) := by
  unfold signalVec
  simp only
  split
  · exact ⟨s.ras, s.side, _, s.hostMem, s.regs, s.intq, rfl⟩
  · exact ⟨s.ras, s.side, _, _, s.regs, s.intq, rfl⟩

/-- An event touches the event queue, the mirror and SMBALERT#, its counters, and where its severity asks, a vector (R427 to R429). -/
theorem quiet_logRaw (s : State) (code sev blk unit : Nat) (args : List Nat) : Quiet s (logRaw s code sev blk unit args) := by
  unfold logRaw
  simp only
  split
  · exact ⟨_, _, s.hif, s.hostMem, s.regs, s.intq, rfl⟩
  · split
    · exact quiet_regSatInc ..
    · split
      · refine Quiet.trans ?_ (quiet_alertLow _)
        unfold signalEventVec
        split
        · exact Quiet.trans ⟨_, _, s.hif, s.hostMem, _, s.intq, rfl⟩ (quiet_signalVec _ _)
        · exact ⟨_, _, s.hif, s.hostMem, _, s.intq, rfl⟩
      · exact ⟨_, _, s.hif, s.hostMem, _, s.intq, rfl⟩

theorem quiet_logEv (s : State) (code : Nat) (sev : Sev) (blk unit : Nat) (args : List Nat) : Quiet s (logEv s code sev blk unit args) := quiet_logRaw ..

/-- A write that its class forbids sets CHG_REJ and logs EV-0x0F01, and does nothing else (R13). -/
theorem quiet_rejectChange (s : State) (blk : Nat) : Quiet s (rejectChange s blk) := (quiet_regSetF ..).trans (quiet_logEv ..)

/-- The request audit of a ring touches nothing where the identity holds (R445). -/
theorem auditRing_ok (s : State) (n : Nat) (h : (s.ring n).auditOk = true) : auditRing s n = s := by simp [auditRing, h]

theorem quiet_auditRing (s : State) (n : Nat) : Quiet s (auditRing s n) := by
  unfold auditRing
  split
  · exact Quiet.refl s
  · exact ((quiet_regSetF ..).trans (quiet_logEv ..)).trans (quiet_raiseInt ..)

theorem quiet_maybeSignal (s : State) (r : Nat) : Quiet s (maybeSignal s r) := by
  unfold maybeSignal
  simp only
  split
  · exact (quiet_updRing ..).trans (quiet_signalVec ..)
  · exact Quiet.refl s

/-- Posting a completion touches the host interface, host memory, and what a failed audit touches (R373). -/
theorem quiet_postCompletion (s : State) (h : HostRef) (st : Status) (detail result : Nat) : Quiet s (postCompletion s h st detail result) := by
  unfold postCompletion
  simp only
  split
  · exact Quiet.refl s
  · split
    · exact quiet_updRing ..
    · refine Quiet.trans ?_ (quiet_maybeSignal _ _)
      refine Quiet.trans ?_ (quiet_auditRing _ _)
      exact ((quiet_hostWrite ..).trans (quiet_updRing ..)).trans (quiet_hif ..)

@[simp] theorem logEv_pending (s : State) (code : Nat) (sev : Sev) (blk unit : Nat) (args : List Nat) : (logEv s code sev blk unit args).pending = s.pending := (quiet_logEv ..).pending
@[simp] theorem logEv_mem (s : State) (code : Nat) (sev : Sev) (blk unit : Nat) (args : List Nat) : (logEv s code sev blk unit args).mem = s.mem := (quiet_logEv ..).mem
@[simp] theorem logEv_poison (s : State) (code : Nat) (sev : Sev) (blk unit : Nat) (args : List Nat) : (logEv s code sev blk unit args).poison = s.poison := (quiet_logEv ..).poison
@[simp] theorem logEv_cores (s : State) (code : Nat) (sev : Sev) (blk unit : Nat) (args : List Nat) : (logEv s code sev blk unit args).cores = s.cores := (quiet_logEv ..).cores
@[simp] theorem logEv_ve (s : State) (code : Nat) (sev : Sev) (blk unit : Nat) (args : List Nat) : (logEv s code sev blk unit args).ve = s.ve := (quiet_logEv ..).ve
@[simp] theorem logEv_sets (s : State) (code : Nat) (sev : Sev) (blk unit : Nat) (args : List Nat) : (logEv s code sev blk unit args).sets = s.sets := (quiet_logEv ..).sets
@[simp] theorem logEv_disp (s : State) (code : Nat) (sev : Sev) (blk unit : Nat) (args : List Nat) : (logEv s code sev blk unit args).disp = s.disp := (quiet_logEv ..).disp
@[simp] theorem logEv_ports (s : State) (code : Nat) (sev : Sev) (blk unit : Nat) (args : List Nat) : (logEv s code sev blk unit args).ports = s.ports := (quiet_logEv ..).ports
@[simp] theorem logEv_courses (s : State) (code : Nat) (sev : Sev) (blk unit : Nat) (args : List Nat) : (logEv s code sev blk unit args).courses = s.courses := (quiet_logEv ..).courses
@[simp] theorem logEv_loops (s : State) (code : Nat) (sev : Sev) (blk unit : Nat) (args : List Nat) : (logEv s code sev blk unit args).loops = s.loops := (quiet_logEv ..).loops
@[simp] theorem logEv_memc (s : State) (code : Nat) (sev : Sev) (blk unit : Nat) (args : List Nat) : (logEv s code sev blk unit args).memc = s.memc := (quiet_logEv ..).memc
@[simp] theorem logEv_power (s : State) (code : Nat) (sev : Sev) (blk unit : Nat) (args : List Nat) : (logEv s code sev blk unit args).power = s.power := (quiet_logEv ..).power
@[simp] theorem logEv_aon (s : State) (code : Nat) (sev : Sev) (blk unit : Nat) (args : List Nat) : (logEv s code sev blk unit args).aon = s.aon := (quiet_logEv ..).aon
@[simp] theorem logEv_boot (s : State) (code : Nat) (sev : Sev) (blk unit : Nat) (args : List Nat) : (logEv s code sev blk unit args).boot = s.boot := (quiet_logEv ..).boot
@[simp] theorem logEv_sec (s : State) (code : Nat) (sev : Sev) (blk unit : Nat) (args : List Nat) : (logEv s code sev blk unit args).sec = s.sec := (quiet_logEv ..).sec
@[simp] theorem logEv_time (s : State) (code : Nat) (sev : Sev) (blk unit : Nat) (args : List Nat) : (logEv s code sev blk unit args).time = s.time := (quiet_logEv ..).time
@[simp] theorem logEv_timeFrac (s : State) (code : Nat) (sev : Sev) (blk unit : Nat) (args : List Nat) : (logEv s code sev blk unit args).timeFrac = s.timeFrac := (quiet_logEv ..).timeFrac
@[simp] theorem logEv_freeCtr (s : State) (code : Nat) (sev : Sev) (blk unit : Nat) (args : List Nat) : (logEv s code sev blk unit args).freeCtr = s.freeCtr := (quiet_logEv ..).freeCtr

@[simp] theorem logRaw_pending (s : State) (code sev blk unit : Nat) (args : List Nat) : (logRaw s code sev blk unit args).pending = s.pending := (quiet_logRaw ..).pending
@[simp] theorem logRaw_mem (s : State) (code sev blk unit : Nat) (args : List Nat) : (logRaw s code sev blk unit args).mem = s.mem := (quiet_logRaw ..).mem
@[simp] theorem logRaw_poison (s : State) (code sev blk unit : Nat) (args : List Nat) : (logRaw s code sev blk unit args).poison = s.poison := (quiet_logRaw ..).poison
@[simp] theorem logRaw_cores (s : State) (code sev blk unit : Nat) (args : List Nat) : (logRaw s code sev blk unit args).cores = s.cores := (quiet_logRaw ..).cores
@[simp] theorem logRaw_ve (s : State) (code sev blk unit : Nat) (args : List Nat) : (logRaw s code sev blk unit args).ve = s.ve := (quiet_logRaw ..).ve
@[simp] theorem logRaw_sets (s : State) (code sev blk unit : Nat) (args : List Nat) : (logRaw s code sev blk unit args).sets = s.sets := (quiet_logRaw ..).sets
@[simp] theorem logRaw_disp (s : State) (code sev blk unit : Nat) (args : List Nat) : (logRaw s code sev blk unit args).disp = s.disp := (quiet_logRaw ..).disp
@[simp] theorem logRaw_ports (s : State) (code sev blk unit : Nat) (args : List Nat) : (logRaw s code sev blk unit args).ports = s.ports := (quiet_logRaw ..).ports
@[simp] theorem logRaw_courses (s : State) (code sev blk unit : Nat) (args : List Nat) : (logRaw s code sev blk unit args).courses = s.courses := (quiet_logRaw ..).courses
@[simp] theorem logRaw_loops (s : State) (code sev blk unit : Nat) (args : List Nat) : (logRaw s code sev blk unit args).loops = s.loops := (quiet_logRaw ..).loops
@[simp] theorem logRaw_memc (s : State) (code sev blk unit : Nat) (args : List Nat) : (logRaw s code sev blk unit args).memc = s.memc := (quiet_logRaw ..).memc
@[simp] theorem logRaw_power (s : State) (code sev blk unit : Nat) (args : List Nat) : (logRaw s code sev blk unit args).power = s.power := (quiet_logRaw ..).power
@[simp] theorem logRaw_aon (s : State) (code sev blk unit : Nat) (args : List Nat) : (logRaw s code sev blk unit args).aon = s.aon := (quiet_logRaw ..).aon
@[simp] theorem logRaw_boot (s : State) (code sev blk unit : Nat) (args : List Nat) : (logRaw s code sev blk unit args).boot = s.boot := (quiet_logRaw ..).boot
@[simp] theorem logRaw_sec (s : State) (code sev blk unit : Nat) (args : List Nat) : (logRaw s code sev blk unit args).sec = s.sec := (quiet_logRaw ..).sec
@[simp] theorem logRaw_time (s : State) (code sev blk unit : Nat) (args : List Nat) : (logRaw s code sev blk unit args).time = s.time := (quiet_logRaw ..).time
@[simp] theorem logRaw_timeFrac (s : State) (code sev blk unit : Nat) (args : List Nat) : (logRaw s code sev blk unit args).timeFrac = s.timeFrac := (quiet_logRaw ..).timeFrac
@[simp] theorem logRaw_freeCtr (s : State) (code sev blk unit : Nat) (args : List Nat) : (logRaw s code sev blk unit args).freeCtr = s.freeCtr := (quiet_logRaw ..).freeCtr

@[simp] theorem rejectChange_pending (s : State) (blk : Nat) : (rejectChange s blk).pending = s.pending := (quiet_rejectChange ..).pending
@[simp] theorem rejectChange_mem (s : State) (blk : Nat) : (rejectChange s blk).mem = s.mem := (quiet_rejectChange ..).mem
@[simp] theorem rejectChange_poison (s : State) (blk : Nat) : (rejectChange s blk).poison = s.poison := (quiet_rejectChange ..).poison
@[simp] theorem rejectChange_cores (s : State) (blk : Nat) : (rejectChange s blk).cores = s.cores := (quiet_rejectChange ..).cores
@[simp] theorem rejectChange_ve (s : State) (blk : Nat) : (rejectChange s blk).ve = s.ve := (quiet_rejectChange ..).ve
@[simp] theorem rejectChange_sets (s : State) (blk : Nat) : (rejectChange s blk).sets = s.sets := (quiet_rejectChange ..).sets
@[simp] theorem rejectChange_disp (s : State) (blk : Nat) : (rejectChange s blk).disp = s.disp := (quiet_rejectChange ..).disp
@[simp] theorem rejectChange_ports (s : State) (blk : Nat) : (rejectChange s blk).ports = s.ports := (quiet_rejectChange ..).ports
@[simp] theorem rejectChange_courses (s : State) (blk : Nat) : (rejectChange s blk).courses = s.courses := (quiet_rejectChange ..).courses
@[simp] theorem rejectChange_loops (s : State) (blk : Nat) : (rejectChange s blk).loops = s.loops := (quiet_rejectChange ..).loops
@[simp] theorem rejectChange_memc (s : State) (blk : Nat) : (rejectChange s blk).memc = s.memc := (quiet_rejectChange ..).memc
@[simp] theorem rejectChange_power (s : State) (blk : Nat) : (rejectChange s blk).power = s.power := (quiet_rejectChange ..).power
@[simp] theorem rejectChange_aon (s : State) (blk : Nat) : (rejectChange s blk).aon = s.aon := (quiet_rejectChange ..).aon
@[simp] theorem rejectChange_boot (s : State) (blk : Nat) : (rejectChange s blk).boot = s.boot := (quiet_rejectChange ..).boot
@[simp] theorem rejectChange_sec (s : State) (blk : Nat) : (rejectChange s blk).sec = s.sec := (quiet_rejectChange ..).sec
@[simp] theorem rejectChange_time (s : State) (blk : Nat) : (rejectChange s blk).time = s.time := (quiet_rejectChange ..).time
@[simp] theorem rejectChange_timeFrac (s : State) (blk : Nat) : (rejectChange s blk).timeFrac = s.timeFrac := (quiet_rejectChange ..).timeFrac
@[simp] theorem rejectChange_freeCtr (s : State) (blk : Nat) : (rejectChange s blk).freeCtr = s.freeCtr := (quiet_rejectChange ..).freeCtr

@[simp] theorem postCompletion_pending (s : State) (h : HostRef) (st : Status) (d r : Nat) : (postCompletion s h st d r).pending = s.pending := (quiet_postCompletion ..).pending
@[simp] theorem postCompletion_mem (s : State) (h : HostRef) (st : Status) (d r : Nat) : (postCompletion s h st d r).mem = s.mem := (quiet_postCompletion ..).mem
@[simp] theorem postCompletion_poison (s : State) (h : HostRef) (st : Status) (d r : Nat) : (postCompletion s h st d r).poison = s.poison := (quiet_postCompletion ..).poison
@[simp] theorem postCompletion_cores (s : State) (h : HostRef) (st : Status) (d r : Nat) : (postCompletion s h st d r).cores = s.cores := (quiet_postCompletion ..).cores
@[simp] theorem postCompletion_ve (s : State) (h : HostRef) (st : Status) (d r : Nat) : (postCompletion s h st d r).ve = s.ve := (quiet_postCompletion ..).ve
@[simp] theorem postCompletion_sets (s : State) (h : HostRef) (st : Status) (d r : Nat) : (postCompletion s h st d r).sets = s.sets := (quiet_postCompletion ..).sets
@[simp] theorem postCompletion_disp (s : State) (h : HostRef) (st : Status) (d r : Nat) : (postCompletion s h st d r).disp = s.disp := (quiet_postCompletion ..).disp
@[simp] theorem postCompletion_ports (s : State) (h : HostRef) (st : Status) (d r : Nat) : (postCompletion s h st d r).ports = s.ports := (quiet_postCompletion ..).ports
@[simp] theorem postCompletion_courses (s : State) (h : HostRef) (st : Status) (d r : Nat) : (postCompletion s h st d r).courses = s.courses := (quiet_postCompletion ..).courses
@[simp] theorem postCompletion_loops (s : State) (h : HostRef) (st : Status) (d r : Nat) : (postCompletion s h st d r).loops = s.loops := (quiet_postCompletion ..).loops
@[simp] theorem postCompletion_memc (s : State) (h : HostRef) (st : Status) (d r : Nat) : (postCompletion s h st d r).memc = s.memc := (quiet_postCompletion ..).memc
@[simp] theorem postCompletion_power (s : State) (h : HostRef) (st : Status) (d r : Nat) : (postCompletion s h st d r).power = s.power := (quiet_postCompletion ..).power
@[simp] theorem postCompletion_aon (s : State) (h : HostRef) (st : Status) (d r : Nat) : (postCompletion s h st d r).aon = s.aon := (quiet_postCompletion ..).aon
@[simp] theorem postCompletion_boot (s : State) (h : HostRef) (st : Status) (d r : Nat) : (postCompletion s h st d r).boot = s.boot := (quiet_postCompletion ..).boot
@[simp] theorem postCompletion_sec (s : State) (h : HostRef) (st : Status) (d r : Nat) : (postCompletion s h st d r).sec = s.sec := (quiet_postCompletion ..).sec
@[simp] theorem postCompletion_time (s : State) (h : HostRef) (st : Status) (d r : Nat) : (postCompletion s h st d r).time = s.time := (quiet_postCompletion ..).time
@[simp] theorem postCompletion_timeFrac (s : State) (h : HostRef) (st : Status) (d r : Nat) : (postCompletion s h st d r).timeFrac = s.timeFrac := (quiet_postCompletion ..).timeFrac
@[simp] theorem postCompletion_freeCtr (s : State) (h : HostRef) (st : Status) (d r : Nat) : (postCompletion s h st d r).freeCtr = s.freeCtr := (quiet_postCompletion ..).freeCtr

end Sys2Proof.Machine
end

