-- ==== Sys2Proof/Laws/Memory.lean ====
section
/-! SUPPORT. The sparse maps in which memory and the registers are kept: every operation keeps the canonical form, a read after a write gives the value written, and every other key keeps its value. -/
namespace Sys2Proof.Machine
open Sys2Proof

/-! The canonical form -/

/-- Every key of a map is above a bound. -/
def WMap.above (m : WMap) (k : Nat) : Prop := ∀ e ∈ m, k < e.1

theorem wmapWf_cons (d : Nat → Word) (a : Nat) (v : Word) (r : WMap) :
    wmapWf d ((a, v) :: r) = true ↔ v ≠ d a ∧ WMap.above r a ∧ wmapWf d r = true := by
  induction r generalizing a v with
  | nil => simp [wmapWf, WMap.above]
  | cons e r ih =>
    obtain ⟨b, w⟩ := e
    simp only [wmapWf, Bool.and_eq_true, bne_iff_ne, ne_eq, decide_eq_true_eq]
    constructor
    · rintro ⟨⟨h1, h2⟩, h3⟩
      refine ⟨h1, fun e he => ?_, h3⟩
      rcases List.mem_cons.1 he with rfl | he
      · exact h2
      · exact Nat.lt_trans h2 (((ih b w).1 h3).2.1 e he)
    · rintro ⟨h1, h2, h3⟩
      exact ⟨⟨h1, h2 (b, w) (List.mem_cons_self ..)⟩, h3⟩

theorem wmapSet_above (r : WMap) (a k : Nat) (v d : Word) (h : WMap.above r a) (hk : a < k) : WMap.above (wmapSet r k v d) a := by
  induction r with
  | nil =>
    simp only [wmapSet]; split
    · exact h
    · intro e he; rw [List.mem_singleton] at he; subst he; exact hk
  | cons x r ih =>
    obtain ⟨b, w⟩ := x
    have hb : a < b := h (b, w) (List.mem_cons_self ..)
    have hr : WMap.above r a := fun e he => h e (List.mem_cons_of_mem _ he)
    intro e he
    simp only [wmapSet] at he
    split at he
    · split at he
      · exact hr e he
      · rcases List.mem_cons.1 he with rfl | he
        · exact hk
        · exact hr e he
    · split at he
      · split at he
        · exact h e he
        · rcases List.mem_cons.1 he with rfl | he
          · exact hk
          · exact h e he
      · rcases List.mem_cons.1 he with rfl | he
        · exact hb
        · exact ih hr e he

/-- A write keeps the canonical form. -/
theorem wmapSet_wf (d : Nat → Word) (m : WMap) (k : Nat) (v : Word) (h : wmapWf d m = true) : wmapWf d (wmapSet m k v (d k)) = true := by
  induction m with
  | nil => simp only [wmapSet]; split <;> simp_all [wmapWf]
  | cons x r ih =>
    obtain ⟨a, w⟩ := x
    obtain ⟨h1, h2, h3⟩ := (wmapWf_cons d a w r).1 h
    simp only [wmapSet]
    split
    · rename_i e
      split
      · exact h3
      · rename_i hv; exact (wmapWf_cons ..).2 ⟨hv, e ▸ h2, h3⟩
    · split
      · split
        · exact h
        · rename_i hlt hv
          refine (wmapWf_cons ..).2 ⟨hv, fun e he => ?_, h⟩
          rcases List.mem_cons.1 he with rfl | he
          · exact hlt
          · exact Nat.lt_trans hlt (h2 e he)
      · rename_i hne hlt
        exact (wmapWf_cons ..).2 ⟨h1, wmapSet_above r a k v (d k) h2 (by omega), ih h3⟩

/-- Removing entries keeps the canonical form. -/
theorem wmapFilter_wf (d : Nat → Word) (m : WMap) (p : Nat × Word → Bool) (h : wmapWf d m = true) : wmapWf d (m.filter p) = true := by
  induction m with
  | nil => rfl
  | cons x r ih =>
    obtain ⟨a, w⟩ := x
    obtain ⟨h1, h2, h3⟩ := (wmapWf_cons d a w r).1 h
    rw [List.filter_cons]
    split
    · exact (wmapWf_cons ..).2 ⟨h1, fun e he => h2 e (List.mem_filter.1 he).1, ih h3⟩
    · exact ih h3

theorem wmapClear_wf (d : Nat → Word) (m : WMap) (lo hi : Nat) (h : wmapWf d m = true) : wmapWf d (wmapClear m lo hi) = true := wmapFilter_wf d m _ h

/-! Reads after writes -/

/-- A key below every key of a map reads the default. -/
theorem wmapGet_above (r : WMap) (k : Nat) (d : Word) (h : WMap.above r k) : wmapGet r k d = d := by
  cases r with
  | nil => rfl
  | cons e r =>
    have := h e (List.mem_cons_self ..)
    obtain ⟨a, v⟩ := e
    simp only [wmapGet]
    rw [if_neg (by simp at this; omega), if_pos (by simpa using this)]

/-- A read after a write gives the value written, or what the map held at every other key. -/
theorem wmapGet_set (d : Nat → Word) (m : WMap) (k : Nat) (v : Word) (j : Nat) (x : Word) (h : wmapWf d m = true) (hx : j = k → x = d k) :
    wmapGet (wmapSet m k v (d k)) j x = if j = k then v else wmapGet m j x := by
  induction m with
  | nil =>
    simp only [wmapSet]
    by_cases e : j = k
    · subst e; split <;> simp_all [wmapGet]
    · split
      · simp [wmapGet]
      · simp only [wmapGet, if_neg (Ne.symm e)]; split <;> rfl
  | cons y r ih =>
    obtain ⟨a, w⟩ := y
    obtain ⟨h1, h2, h3⟩ := (wmapWf_cons d a w r).1 h
    simp only [wmapSet]
    split
    · rename_i e; subst e
      split
      · rename_i hv
        by_cases e : j = a
        · subst e; rw [if_pos rfl, hx rfl, ← hv, hv, wmapGet_above r j _ h2]
        · rw [if_neg e]
          simp only [wmapGet, if_neg (Ne.symm e)]
          split
          · rename_i hl; exact wmapGet_above r j x fun e he => Nat.lt_trans hl (h2 e he)
          · rfl
      · by_cases e : j = a
        · subst e; simp [wmapGet]
        · simp [wmapGet, e, Ne.symm e]
    · rename_i hne
      split
      · rename_i hlt
        split
        · rename_i hv
          by_cases e : j = k
          · subst e; simp [wmapGet, hne, hlt, hv, hx rfl]
          · rw [if_neg e]
        · by_cases e : j = k
          · subst e; simp [wmapGet]
          · rw [if_neg e]
            simp only [wmapGet, if_neg (Ne.symm e)]
            split
            · rename_i hl; rw [if_neg (by omega), if_pos (by omega)]
            · rfl
      · rename_i hlt
        simp only [wmapGet]
        by_cases e : j = k
        · subst e; rw [if_neg hne, if_neg hlt, if_pos rfl, ih h3, if_pos rfl]
        · rw [if_neg e]
          split
          · rfl
          · split
            · rfl
            · rw [ih h3, if_neg e]

/-! Memory -/

/-- A stored word keeps memory's canonical form. -/
theorem memSet_wf (s : State) (k : Nat) (v : Word) (h : Memory.wf s.mem = true) : Memory.wf (memSet s k v).mem = true := wmapSet_wf (fun _ => 0) s.mem k v h

/-- What memory holds after a word is stored. -/
theorem memGet_memSet (s : State) (k j : Nat) (v : Word) (h : Memory.wf s.mem = true) : memGet (memSet s k v) j = if j = k then v else memGet s j :=
  wmapGet_set (fun _ => 0) s.mem k v j 0 h fun _ => rfl

/-- A store at an internal address keeps memory's canonical form. -/
theorem memWrite_wf (s : State) (a : Nat) (v : Word) (h : Memory.wf s.mem = true) : Memory.wf (memWrite s a v).mem = true := by
  unfold memWrite
  split
  · exact memSet_wf s _ v h
  · exact h

/-- A fold of stores keeps memory's canonical form. -/
theorem foldl_memWf {α : Type} (l : List α) (f : State → α → State) (hf : ∀ s x, Memory.wf s.mem = true → Memory.wf (f s x).mem = true) (s : State)
    (h : Memory.wf s.mem = true) : Memory.wf (l.foldl f s).mem = true := by
  induction l generalizing s with
  | nil => exact h
  | cons x l ih => exact ih _ (hf s x h)

/-- Stores from an internal address on keep memory's canonical form. -/
theorem memWrites_wf (s : State) (a : Nat) (vs : List Word) (h : Memory.wf s.mem = true) : Memory.wf (memWrites s a vs).mem = true := by
  have hf : Memory.wf ((vs.zipIdx).foldl (fun s e => match storeKey s (a + e.2) with | some k => memSet s k e.1 | none => s) s).mem = true := by
    refine foldl_memWf _ _ (fun s x hs => ?_) s h
    split
    · exact memSet_wf s _ _ hs
    · exact hs
  unfold memWrites
  split
  · exact hf
  · exact hf

theorem memWriteMask_wf (s : State) (a : Nat) (v m : Word) (h : Memory.wf s.mem = true) : Memory.wf (memWriteMask s a v m).mem = true := by
  unfold memWriteMask
  split
  · exact memSet_wf s _ _ h
  · exact h

theorem ssWrites_wf (s : State) (off : Nat) (vs : List Word) (h : Memory.wf s.mem = true) : Memory.wf (ssWrites s off vs).mem = true :=
  foldl_memWf _ _ (fun s _ hs => memSet_wf s _ _ hs) s h

/-! Registers -/

/-- A fold of writes of register words keeps their canonical form. -/
theorem foldl_regWf (l : List Nat) (f : Nat → Nat) (v : Nat → Word) (m : WMap) (h : wmapWf regReset m = true) :
    wmapWf regReset (l.foldl (fun m i => wmapSet m (f i) (v i) (regReset (f i))) m) = true := by
  induction l generalizing m with
  | nil => exact h
  | cons i l ih => exact ih _ (wmapSet_wf regReset m (f i) (v i) h)

/-- Setting a register keeps the canonical form of the register file. -/
theorem regSet_wf (s : State) (key v n : Nat) (h : wmapWf regReset s.regs.val = true) : wmapWf regReset (s.regSet key v n).regs.val = true :=
  foldl_regWf (List.range n) (key + ·) (fun i => wd (v >>> (16 * i))) s.regs.val h

/-- A boundary keeps the canonical form of the values in effect. -/
theorem takeEffect_wf (s : State) (key n : Nat) (h : wmapWf regReset s.regs.eff = true) : wmapWf regReset (s.takeEffect key n).regs.eff = true :=
  foldl_regWf (List.range n) (key + ·) (fun i => s.regW (key + i)) s.regs.eff h

/-- What a word of a register holds after a register of one word is set. -/
theorem regW_regSet (s : State) (key v j : Nat) (h : wmapWf regReset s.regs.val = true) : (s.regSet key v).regW j = if j = key then wd v else s.regW j := by
  have := wmapGet_set regReset s.regs.val key (wd v) j (regReset j) h fun e => e ▸ rfl
  simpa [State.regSet, State.regW] using this

/-! Host memory -/

theorem hostRising_cons (a : Nat) (v : Byte) (r : List Host.Cell) :
    hostRising ((a, v) :: r) = true ↔ (∀ e ∈ r, a < e.1) ∧ hostRising r = true := by
  induction r generalizing a v with
  | nil => simp [hostRising]
  | cons e r ih =>
    obtain ⟨b, w⟩ := e
    simp only [hostRising, Bool.and_eq_true, decide_eq_true_eq]
    constructor
    · rintro ⟨h1, h2⟩
      refine ⟨fun e he => ?_, h2⟩
      rcases List.mem_cons.1 he with rfl | he
      · exact h1
      · exact Nat.lt_trans h1 (((ih b w).1 h2).1 e he)
    · rintro ⟨h1, h2⟩; exact ⟨h1 (b, w) (List.mem_cons_self ..), h2⟩

theorem hostPut_mem (m : List Host.Cell) (a : Nat) (v : Byte) : ∀ e ∈ hostPut m a v, e.1 = a ∨ e ∈ m := by
  induction m with
  | nil => intro e he; simp only [hostPut, List.mem_singleton] at he; exact .inl (by rw [he])
  | cons x m ih =>
    obtain ⟨b, w⟩ := x
    intro e he
    simp only [hostPut] at he
    split at he
    · rcases List.mem_cons.1 he with rfl | he
      · exact .inl rfl
      · exact .inr (List.mem_cons_of_mem _ he)
    · split at he
      · rcases List.mem_cons.1 he with rfl | he
        · exact .inl rfl
        · exact .inr he
      · rcases List.mem_cons.1 he with rfl | he
        · exact .inr (List.mem_cons_self ..)
        · exact (ih e he).imp id (List.mem_cons_of_mem _)

/-- A byte that the device writes keeps host memory's addresses strictly rising. -/
theorem hostPut_rising (m : List Host.Cell) (a : Nat) (v : Byte) (h : hostRising m = true) : hostRising (hostPut m a v) = true := by
  induction m with
  | nil => rfl
  | cons x m ih =>
    obtain ⟨b, w⟩ := x
    obtain ⟨h1, h2⟩ := (hostRising_cons b w m).1 h
    simp only [hostPut]
    split
    · rename_i e; exact (hostRising_cons ..).2 ⟨e ▸ h1, h2⟩
    · split
      · rename_i hl
        refine (hostRising_cons ..).2 ⟨fun e he => ?_, h⟩
        rcases List.mem_cons.1 he with rfl | he
        · exact hl
        · exact Nat.lt_trans hl (h1 e he)
      · rename_i hne hl
        refine (hostRising_cons ..).2 ⟨fun e he => ?_, ih h2⟩
        rcases hostPut_mem m a v e he with he | he
        · omega
        · exact h1 e he

/-- Bytes written to host memory keep its addresses strictly rising. -/
theorem hostWrite_rising (s : State) (a : Nat) (bs : List Byte) (h : hostRising s.hostMem = true) : hostRising (hostWrite s a bs).hostMem = true := by
  have : ∀ (l : List (Byte × Nat)) (m : List Host.Cell), hostRising m = true → hostRising (l.foldl (fun m e => hostPut m (a + e.2) e.1) m) = true := by
    intro l
    induction l with
    | nil => exact fun _ h => h
    | cons e l ih => exact fun m h => ih _ (hostPut_rising m (a + e.2) e.1 h)
  exact this _ _ h

/-- The memory after reset has the canonical form. -/
theorem reset_memWf : Memory.wf State.reset.mem = true := rfl

end Sys2Proof.Machine
end

