-- ==== Sys2Proof/Tests/Slice0.lean ====
section
/-! SUPPORT. The model's own tests: an ill-formed term for each check of WellFormed, values that the spec works out, and for each statement with hypotheses a concrete state and operands that meet them. -/
namespace Sys2Proof.Tests
set_option Elab.async false
open Sys2Proof Sys2Proof.Machine

/-! WellFormed -/

theorem test_short_form_has_no_carry_condition : (Instr.add 0 .c false).wellFormed = false ∧ (Instr.add 0 .t false).wellFormed = true := by decide
theorem test_long_form_has_every_condition : (Instr.aluiAdd 0 .hi false 1).wellFormed = true := by decide
theorem test_slate_header_length : (Instr.slateAttach 0 ⟨List.replicate 255 0, List.replicate 192 0, [], [], [], [], 0⟩).wellFormed = false := by decide +kernel
theorem test_slate_certificate_length : (Instr.slateAttach 0 ⟨List.replicate 256 0, List.replicate 191 0, [], [], [], [], 0⟩).wellFormed = false := by decide +kernel
theorem test_record_header_length (d : SlateData) (h : d.header.length = 255) : (Instr.slateAttach 0 d).wellFormed = false := by simp [Instr.wellFormed, h]
theorem test_entry_length : (Instr.submissionEntryTake 0 (some (List.replicate 65 0))).wellFormed = false := by decide
theorem test_loop_readings : (Instr.loopMeasurement (List.replicate 63 0)).wellFormed = false := by decide
theorem test_thermal_readings : (Instr.thermalSample (List.replicate 23 0) 0 0 0).wellFormed = false := by decide

/-! Values that the spec works out -/

/-- Section 8.7's example: 0x9958 + 0x0047 is 0x0005 with a carry, and the high words give 0x0002. -/
theorem test_surcharge : (daddF 4 0x9958 0x0047 0).1 = 0x0005 ∧ (daddF 4 0x9958 0x0047 0).2.d = some true ∧ (daddF 4 1 0 1).1 = 2 ∧ (daddF 8 0x00019958 0x47 0).1 = 0x00020005 := by decide
/-- R244's example: CRC-32 of the bytes 0x31 to 0x39. -/
theorem test_crc32_check_value : (bytesOfNat 9 0x393837363534333231).foldl (fun c b => crcBits 32 0x04C11DB7 8 b.toNat c) 0xFFFFFFFF = 0x0376E6E7 := by decide +kernel
/-- R236: PSH 0xF0 then LDH 0x12 leaves 0x12F0. -/
theorem test_psh_ldh : (0x12 : Byte) ++ ((0xF0 : Byte).signExtend 16).setWidth 8 = (0x12F0 : Word) := by decide
/-- R293: TLINE of a slate 2160 lines high on a 120 Hz course is 3.83 µs. -/
theorem test_tline : tlineOf 120 2160 = 383 := by decide
/-- R241: the one overflow of DIVS. -/
theorem test_divs_overflow : (divsF 0x80000000 0xFFFF).1 = 0x7FFFFFFF ∧ (divsF 0x80000000 0xFFFF).2.v = some true := by decide

/-! Witnesses: control cores. Each theorem meets the hypotheses of the statement that it is named after, each clause at a bound of its range. -/

/-- The machine after reset with core 0 running in role 0, `l` on its stack, and `f` applied. -/
def mach (l : List Word) (f : Core → Core) : State :=
  { State.reset with cores := State.reset.cores.set 0 (f { Core.reset (some 0) with running := true, pc := 0x900000000, stack := l ++ List.replicate (32 - l.length) 0, depth := l.length }) }

theorem canIssue_of {s : State} {c : CoreId} {n : Nat} (h : (coreRuns s c.val && !eventDue s c.val && !(s.core c.val).repa && (s.core c.val).far.isEmpty &&
    (List.range n).all fun i => (fetchFault s c.val (((s.core c.val).pc.toNat + i) % 2 ^ 36)).isNone) = true) : CanIssue s c n := by
  simp only [Bool.and_eq_true, Bool.not_eq_true', List.all_eq_true, List.mem_range, Option.isNone_iff_eq_none, List.isEmpty_iff] at h
  exact ⟨h.1.1.1.1, h.1.1.1.2, h.1.1.2, h.1.2, h.2⟩

theorem rep_of {s : State} {c : CoreId} (h : (coreRuns s c.val && !eventDue s c.val && (s.core c.val).repa && (s.core c.val).far.isEmpty &&
    (fetchFault s c.val (s.core c.val).pc.toNat).isNone) = true) : Repeating s c := by
  simp only [Bool.and_eq_true, Bool.not_eq_true', Option.isNone_iff_eq_none, List.isEmpty_iff] at h
  exact ⟨h.1.1.1.1, h.1.1.1.2, h.1.1.2, h.1.2, h.2⟩

theorem fires_of {s : State} {c : CoreId} {cond : Cond} {n : Nat} (h : CanIssue s c n) (g : ((n != 1 || cond.short) && condHolds (s.core c.val) cond) = true) : Fires s c cond n := by
  simp only [Bool.and_eq_true, Bool.or_eq_true, bne_iff_ne, ne_eq] at g
  exact ⟨h, fun e => g.1.resolve_left fun k => k e, g.2⟩

theorem holds_of {k : Core} {l : List Word} (h : (k.depth == l.length && k.stack.take l.length == l) = true) : Holds k l := by
  simp only [Bool.and_eq_true, beq_iff_eq] at h
  exact ⟨h.1, h.2⟩

theorem own_of {s : State} {c : CoreId} {r w : Nat} {m : Nat × Option Nat} {st : Nat}
    (h : ((addrsFrom m.1 w).all (isLocal s c.val) && winGrants (s.core c.val) r (addrsFrom m.1 w) && m.2 == some st) = true) : OwnAccess s c r w m st := by
  simp only [Bool.and_eq_true, List.all_eq_true, beq_iff_eq] at h
  exact ⟨h.1.1, h.1.2, h.2⟩

theorem entry_of {s : State} {c : CoreId} {cause h : Nat}
    (g : let v := (localBase s c.val + (s.core c.val).evbase.toNat + cause) % 2 ^ 36
      ((addrsFrom (frameBase (s.core c.val)) 10).all (isLocal s c.val) && isLocal s c.val v && !(addrsFrom (frameBase (s.core c.val)) 10).contains v &&
        !poisoned s (ownKey c.val v) && h == (localBase s c.val + (ownRead s c.val v).toNat) % 2 ^ 36 && fetchable s c.val h) = true) : EntryOpen s c cause h := by
  simp only [Bool.and_eq_true, List.all_eq_true, Bool.not_eq_true', beq_iff_eq] at g
  obtain ⟨⟨⟨⟨⟨g1, g2⟩, g3⟩, g4⟩, g5⟩, g6⟩ := g
  exact ⟨g1, g2, by simpa using g3, g4, g5, g6⟩

theorem ok_of {e : Except Exc (Nat × Nat)} {v : Nat × Nat} (h : e.toOption = some v) : e = .ok v := by
  cases e with
  | error _ => simp [Except.toOption] at h
  | ok w => simpa [Except.toOption] using h

/-- Core 0 with some words on its stack, in every condition a short form has, at depths that just fit. -/
theorem witness_fires : Fires (mach [1, 2, 3, 4, 5, 6, 7] id) 0 .al 1 ∧ Fires (mach [1, 2, 3, 4, 5, 6, 7] id) 0 .nz 1 ∧ Fires (mach [1] fun k => { k with st := 0x21 }) 0 .t 1 ∧
    Fires (mach [1] fun k => { k with st := 0x21 }) 0 .z 1 ∧ Fires (mach [1, 2, 3, 4, 5, 6, 7] id) 0 .ge 2 ∧ Fires (mach [] id) 17 .al 2 := by
  refine ⟨fires_of (canIssue_of ?_) ?_, fires_of (canIssue_of ?_) ?_, fires_of (canIssue_of ?_) ?_, fires_of (canIssue_of ?_) ?_, fires_of (canIssue_of ?_) ?_, fires_of (canIssue_of ?_) ?_⟩ <;> decide +kernel

/-- StackOperationsLeaveTheirEntries, AdditionsLogicAndSelectionsFollowTable84, OneOperandAndImmediateArithmeticFollowTable84, ShiftsProductsAndQuotientsFollowTable86, DecimalInstructionsFollowTable87, BitAndCrcInstructionsFollowTable88: operands at the top of the stack, and room to the last entry. -/
theorem witness_stack_operations :
    (Holds ((mach [9, 1, 2, 3, 4, 5, 6] id).core 0) ([9, 1] ++ [2, 3, 4, 5, 6]) ∧ Room ((mach [9, 1, 2, 3, 4, 5, 6] id).core 0) 32) ∧
    Holds ((mach (List.replicate 26 7 ++ [1, 2, 3, 4]) id).core 0) (List.replicate 26 7 ++ [1, 2, 3, 4]) ∧ Room ((mach (List.replicate 26 7 ++ [1, 2, 3, 4]) id).core 0) (26 + 6) ∧
    Holds ((mach (List.replicate 15 7 ++ 5 :: List.replicate 15 8) id).core 0) (List.replicate 15 7 ++ 5 :: List.replicate 15 8) ∧ Room ((mach (List.replicate 15 7 ++ 5 :: List.replicate 15 8) id).core 0) (15 + 15 + 2) ∧
    Holds ((mach [0xFFFF, 0x8000] id).core 0) ([] ++ (valueWords false 0xFFFF ++ valueWords false 0x8000)) ∧
    Holds ((mach [0xFFFF, 0x8000, 0x8001, 0x7FFF] id).core 0) ([] ++ (valueWords true 0x8000FFFF ++ valueWords true 0x7FFF8001)) ∧
    Holds ((mach [0x8000] id).core 0) ([] ++ valueWords false 0x8000) ∧ Holds ((mach [0, 0x8000] id).core 0) ([] ++ valueWords true 0x80000000) ∧
    Holds ((mach [0, 0x8000, 63] id).core 0) ([] ++ (valueWords true 0x80000000 ++ [63])) ∧ Holds ((mach [0, 0x8000, 0xFFFF] id).core 0) ([] ++ (valueWords true 0x80000000 ++ [0xFFFF])) ∧
    Room ((mach [0, 0x8000, 0xFFFF] id).core 0) 3 ∧ (0xFFFF : Word) ≠ 0 := by
  refine ⟨⟨holds_of ?_, ?_⟩, holds_of ?_, ?_, holds_of ?_, ?_, holds_of ?_, holds_of ?_, holds_of ?_, holds_of ?_, holds_of ?_, holds_of ?_, ?_, ?_⟩
  all_goals first | decide +kernel | (unfold Room; decide +kernel)

/-- DecimalInstructionsFollowTable87: operands whose digits are all at most 9. -/
theorem witness_digits : (∀ i < 4, bcdDigit 0x9999 i ≤ 9 ∧ bcdDigit 0x0900 i ≤ 9) ∧ 1 ≤ 1 := by decide

/-- AddressRegistersTakeAndGiveAddresses. -/
theorem witness_addresses :
    Holds ((mach [1, 2, 0xFFFF] id).core 0) ([] ++ [1, 2, 0xFFFF]) ∧ (Holds ((mach (List.replicate 29 0) id).core 0) (List.replicate 29 0) ∧ Room ((mach (List.replicate 29 0) id).core 0) 32) ∧
    ((mach [] id).core 0).a[7]? = some 0 ∧ (((mach [] id).core 0).am.getD 3 ⟨0, 0, 0, 0⟩).mode = 0 ∧ (setamDecodes 3 1).fault (mach [] id) 0 = none := by
  refine ⟨holds_of ?_, ⟨holds_of ?_, ?_⟩, ?_, ?_, ?_⟩
  all_goals first | decide +kernel | (unfold Room; decide +kernel)

/-- The core with A0 to A7 at an address of its own memory. -/
def withA (a : Addr) (k : Core) : Core := { k with a := List.replicate 8 a }

/-- OwnMemoryLoadsAndStoresMoveTheirWords: the first and the last words of local memory, with and without a step. -/
theorem witness_own_memory :
    let s := mach [1, 2] (withA 0x900000000)
    let t := mach [1, 2] (withA 0x90000FFFE)
    (OwnAccess s 0 0 1 (memOperand (s.core 0) 0 false 0) 0x900000000 ∧ Clean s 0 (addrsFrom (memOperand (s.core 0) 0 false 0).1 1)) ∧
    (OwnAccess t 0 0 2 (memOperand (t.core 0) 7 false 0) 0x90000FFFE ∧ Clean t 0 (addrsFrom (memOperand (t.core 0) 7 false 0).1 2)) ∧
    OwnAccess s 0 0 2 (memOperand (s.core 0) 3 true 3) 0x900000003 ∧ OwnAccess t 0 1 1 (memOperand (t.core 0) 7 true (-8)) 0x90000FFF6 ∧ OwnAccess t 0 1 2 (memOperand (t.core 0) 0 false 0) 0x90000FFFE ∧
    Holds (s.core 0) ([] ++ [1, 2]) ∧ Holds (s.core 0) ([1] ++ [2]) ∧ Room (s.core 0) (2 + 2) ∧ wmapWf (fun _ => 0) s.mem = true := by
  refine ⟨⟨own_of ?_, ?_⟩, ⟨own_of ?_, ?_⟩, own_of ?_, own_of ?_, own_of ?_, holds_of ?_, holds_of ?_, ?_, ?_⟩
  all_goals first | decide +kernel | (unfold Room; decide +kernel) | (unfold Clean; decide +kernel)

/-- FarAccessesArePostedAndComplete. -/
theorem witness_far :
    let s := mach [5] (withA 0x3FFFFFFFE)
    let b := mach [5, 6] fun k => { withA 0x3FFFFFFFE k with posted := List.replicate 7 ⟨false, 0, 0, none, 0⟩, am := [⟨1, 0, 0x8000, 16⟩] ++ (k.am.drop 1) }
    let f : FarLoad := ⟨0x100, 0, false, [], 0, none⟩
    let p : Posted := ⟨false, 0x804000000 - 1, 7, none, 0⟩
    ((∀ a ∈ addrsFrom (memOperand (s.core 0) 7 false 0).1 2, coreReach s 0 a = .far false) ∧ (∀ a ∈ addrsFrom (memOperand (b.core 0) 3 true (-8)).1 2, coreReach b 0 a = .far false) ∧
      winGrants (s.core 0) 0 (addrsFrom (memOperand (s.core 0) 7 false 0).1 2) = true ∧ winGrants (b.core 0) 1 (addrsFrom (memOperand (b.core 0) 3 true (-8)).1 2) = true ∧
      (memOperand (s.core 0) 7 false 0).2 = some 0x3FFFFFFFE ∧ (memOperand (b.core 0) 3 true (-8)).2 = some 0x3FFFFFFF6 ∧ (memOperand (s.core 0) 0 true 3).2 = some 0x400000001 ∧
      ((s.core 0).depth == 1 && ((s.core 0).stack.take 1 == [5])) = true ∧ ((b.core 0).depth == 2 && ((b.core 0).stack.take 2 == [5, 6])) = true ∧ 1 + 2 ≤ (s.core 0).stack.length ∧
      ((b.core 0).posted.filter (!·.isRing)).length < 8) ∧
    (storeKey s f.addr.toNat = some 0x100 ∧ poisoned s 0x100 = false ∧ ((mach [] fun k => { k with far := [f] }).core 0).far = f :: []) ∧
    (storeKey s p.addr.toNat = some 0x803FFFFFF ∧ ((mach [] fun k => { k with posted := [p] }).core 0).posted = p :: []) ∧ (s.core 0).running = true := by
  decide +kernel

/-- RepeatsCountTheirInstruction: DUP and DROP words after the REP; a repetition with the last count, and one whose condition fails; a load to the last entries and a store, with a step; and none left. -/
theorem witness_repeats :
    let s := { mach [0] id with mem := [(0x900000001, 0x0002), (0x900000002, 0x0002)] }
    let t := mach [3, 4, 5] fun k => { withA 0x90000FFF0 k with st := 0x200, rc := 1 }
    let f := mach (List.replicate 30 0) fun k => { withA 0x900000000 k with st := 0x200, rc := 0xFFFF }
    let z := mach [3, 4, 5] fun k => { k with st := 0x200 }
    repeatable s 0 1 = some 1 ∧ repeatable s 0 2 = some 1 ∧ Holds (s.core 0) ([] ++ [0]) ∧ CanIssue s 0 2 ∧
    (Repeating t 0 ∧ Repeating f 0 ∧ Repeating z 0 ∧ (z.core 0).rc = 0 ∧ (t.core 0).rc ≠ 0 ∧ (f.core 0).rc ≠ 0) ∧
    ((Instr.ld 0 .z 7 true 7).coreForm = some (0, .z, 1, 2) ∧ (Instr.ld 0 .z 7 true 7).repeats = true ∧ (Instr.ld 0 .z 7 true 7).wellFormed = true ∧ condHolds (t.core 0) .z = false ∧ (Instr.ld 0 .z 7 true 7).present 0 0) ∧
    (condHolds (t.core 0) .al = true ∧ Cond.al.short = true ∧ wmapWf (fun _ => 0) t.mem = true) ∧ Holds (t.core 0) ([3, 4] ++ [5]) ∧ Room (t.core 0) (2 + 2) ∧
    Holds (t.core 0) ([3] ++ (valueWords false 4 ++ valueWords false 5)) ∧ Holds (t.core 0) ([3] ++ [4, 5]) ∧
    OwnAccess t 0 1 2 (memOperand (t.core 0) 7 true (-4)) 0x90000FFEC ∧ OwnAccess t 0 1 1 (memOperand (t.core 0) 0 false 7) 0x90000FFF0 ∧
    Holds (f.core 0) (List.replicate 30 0) ∧ Room (f.core 0) (30 + 2) ∧ OwnAccess f 0 0 2 (memOperand (f.core 0) 0 true 3) 0x900000003 ∧ Clean f 0 (addrsFrom (memOperand (f.core 0) 0 true 3).1 2) := by
  refine ⟨?_, ?_, holds_of ?_, canIssue_of ?_, ⟨rep_of ?_, rep_of ?_, rep_of ?_, ?_, ?_, ?_⟩, ⟨?_, ?_, ?_, ?_, trivial⟩, ⟨?_, ?_, ?_⟩, holds_of ?_, ?_, holds_of ?_, holds_of ?_, own_of ?_, own_of ?_, holds_of ?_, ?_, own_of ?_, ?_⟩
  all_goals first | decide +kernel | (unfold Room; decide +kernel) | (unfold Clean; decide +kernel)

/-- CallsAndReturnsKeepTheirFrame: a call that saves every pair, and a return whose frame names A0 and A1. -/
theorem witness_calls :
    let s := mach [] (withA 0x900008000)
    let k := s.core 0
    let ws := [offsetWord s 0 ((k.pc.toNat + 2) % 2 ^ 36), (0xF : BitVec 4).zeroExtend 16] ++ savedWords k 0xF
    let fr := (k.addr 7 + 2 ^ 36 - ws.length) % 2 ^ 36
    let r := { s with mem := [(0x900008000, 0x0123), (0x900008001, 1), (0x900008003, 2)] }
    let saved := { k with a := 0x000020000 :: List.replicate 7 0 }
    OwnAccess s 0 1 ws.length (fr, some fr) fr ∧ OwnAccess r 0 0 8 ((r.core 0).addr 7, some 0) 0 ∧ Clean r 0 (addrsFrom ((r.core 0).addr 7) 8) ∧ (r.core 0).a.length = 8 ∧ saved.a.length = 8 ∧
    2 + 6 * maskCount (1 : BitVec 4).toNat = 8 ∧ (addrsFrom ((r.core 0).addr 7) 8).map (ownRead r 0) = [0x0123, (1 : BitVec 4).zeroExtend 16] ++ savedWords saved 1 ∧ wmapWf (fun _ => 0) r.mem = true := by
  refine ⟨own_of ?_, own_of ?_, ?_, ?_, ?_, ?_, ?_, ?_⟩
  all_goals first | decide +kernel | (unfold Clean; decide +kernel)

/-- GatesAndExceptionReturnsChangeRing: a gate of ring 1 into ring 0, and a frame of an exception taken in ring 3. -/
theorem witness_gates :
    let s := { mach [] (fun k => { withA 0x900008000 k with st := 0x40, gcount := 1, gbase := 0x100, ssp := [0x900009000, 0, 0], cw := [⟨0x900000000, 0x90000FFFF, 0x1FF⟩] }) with
      mem := [(0x900000100, 0x2000), (0x900000101, 0x8200)] }
    let r := { mach [] (withA 0x90000FFF0) with mem := [(0x90000FFF0, 0x0456), (0x90000FFF1, 0x00C0), (0x90000FFF5, 0x1000)] }
    gateEntry s 0 0 = .ok (0x2000, 0) ∧ (∀ a ∈ addrsFrom (0x900009000 - 6) 6, isLocal s 0 a = true) ∧ CanIssue s 0 2 ∧ (s.core 0).fpp = false ∧
    (∀ a ∈ addrsFrom ((r.core 0).addr 7) 6, isLocal r 0 a = true) ∧ Clean r 0 (addrsFrom ((r.core 0).addr 7) 6) ∧
    (addrsFrom ((r.core 0).addr 7) 6).map (ownRead r 0) = [0x0456, 0x00C0] ++ addrWords 0 ++ [0x1000] ++ [] ∧ retxReason (r.core 0) 0x1000 0x00C0 = 0 ∧ (0x00C0 : Word).getLsbD 9 = false ∧
    wmapWf (fun _ => 0) s.mem = true ∧ wmapWf (fun _ => 0) r.mem = true ∧
    (let rep (saved : Word) := { r with mem := [(0x900000456, 0x0002), (0x90000FFF0, 0x0456), (0x90000FFF1, saved), (0x90000FFF5, 0x1000)] }
     let at_ (rc : Word) (w : Word) : State := { (rep 0x2C0).updCore 0 (fun k => { k with rc := rc, pc := 0x900000456, st := 0x2C0 }) with mem := [(0x900000456, w)] }
     let q := { mach [] (withA 0x90000FFE0) with mem := [(0x90000FFE0, 0x0456), (0x90000FFE1, 0x02C0), (0x90000FFE5, 0x2015)] }
     retxReason (q.core 0) 0x2015 0x02C0 = 0 ∧ (∀ a ∈ addrsFrom ((q.core 0).addr 7) 10, isLocal q 0 a = true) ∧ (addrsFrom ((q.core 0).addr 7) 10).map (ownRead q 0) = [0x0456, 0x02C0] ++ addrWords 0 ++ [0x2015] ++ [0, 0, 0, 0] ∧ (0x02C0 : Word).getLsbD 9 = true ∧ eventDue (at_ 1 2) 0 = false ∧ repeatable (at_ 1 2) 0 0 ≠ none ∧ ((at_ 1 2).core 0).rc ≠ 0 ∧ ((at_ 0 2).core 0).rc = 0 ∧
       repeatable (at_ 1 0x1150) 0 0 = none) ∧
    (let o := { State.reset with
       cores := State.reset.cores.set 17 (withA 0x900FF7FF0 (State.reset.core 17)), mem := [(0x900FF7FF0, 0x0456), (0x900FF7FF1, 0x00C0), (0x900FF7FF5, 0x1000)] }
     (∀ a ∈ addrsFrom ((o.core 17).addr 7) 6, isLocal o 17 a = true) ∧ (addrsFrom ((o.core 17).addr 7) 6).map (ownRead o 17) = [0x0456, 0x00C0] ++ addrWords 0 ++ [0x1000] ++ [] ∧ retxReason (o.core 17) 0x1000 0x00C0 = 0 ∧ (o.core 17).fpp = false) := by
  refine ⟨ok_of ?_, ?_, canIssue_of ?_, ?_, ?_, ?_, ?_, ?_, ?_, ?_, ?_, ?_, ?_⟩
  all_goals first | decide +kernel | (unfold Clean; decide +kernel)

/-- ExceptionsEnterTheirHandler: a vector word, a pending interrupt, and each precise exception's condition. -/
theorem witness_exceptions :
    let s := { mach [] (withA 0x900008000) with mem := [(0x90000FF05, 0x3000), (0x90000FF06, 0x3000), (0x90000FF10, 0x3000), (0x90000FF15, 0x3100)] }
    let i := { mach [] (fun k => { withA 0x900008000 k with st := 0x100, imask := 0x20, waiting := true }) with mem := [(0x90000FF15, 0x3100)], intq := [⟨0, 0x15, 4, 0⟩] }
    EntryOpen s 0 0x10 0x900003000 ∧ EntryOpen s 0 6 0x900003000 ∧ EntryOpen s 0 5 0x900003000 ∧ EntryOpen i 0 0x15 0x900003100 ∧
    nextInterrupt i 0 = some 0x15 ∧ firstSource i (roleNo i 0) 0x15 = some ⟨0, 0x15, 4, 0⟩ ∧ (i.core 0).lbe = [] ∧ (i.core 0).fpp = false ∧ coreRuns i 0 = true ∧
    wmapWf (fun _ => 0) s.mem = true ∧ CanIssue s 0 2 ∧ (s.core 0).fpp = false ∧ (s.core 0).depth = 0 ∧ ((mach [1] id).core 0).depth = 1 ∧
    ((mach (List.replicate 32 1) id).core 0).depth = 32 ∧ ((mach (List.replicate 32 1) id).core 0).stack.length = 32 ∧ 1 < ((mach [] fun k => { k with st := 0x80 }).core 0).ring ∧
    Holds ((mach [1, 2, 0] id).core 0) ([] ++ [1, 2, 0]) ∧ fmtH.isSub (0x03FF : Word).toNat = true ∧
    CanIssue (mach [] fun k => { k with st := 0x80, cw := [⟨0x900000000, 0x90000FFFF, 0x1FF⟩] }) 0 1 := by
  refine ⟨entry_of ?_, entry_of ?_, entry_of ?_, entry_of ?_, ?_, ?_, ?_, ?_, ?_, ?_, canIssue_of ?_, ?_, ?_, ?_, ?_, ?_, ?_, holds_of ?_, ?_, canIssue_of ?_⟩ <;> decide +kernel

/-- SystemInstructionsAndControlRegistersFollowTable814: both rings that may use CLI, a pass of WAIT with and without a pending cause, and the stack of an MTC and an MFC. -/
theorem witness_system :
    ((mach [] id).core 0).ring ≤ 1 ∧ ((mach [] fun k => { k with st := 0x40 }).core 0).ring = 1 ∧ ((mach [] id).core 0).ie = false ∧
    pendingCauses { mach [] id with intq := [⟨0, 0x15, 0, 0⟩] } 0 ≠ [] ∧ pendingCauses (mach [] id) 0 = [] ∧ ((mach [7] id).core 0).ring = 0 ∧
    Holds ((mach [7] id).core 0) ([] ++ [7]) ∧ Holds ((mach (List.replicate 31 0) id).core 0) (List.replicate 31 0) ∧ Room ((mach (List.replicate 31 0) id).core 0) 32 := by
  refine ⟨?_, ?_, ?_, ?_, ?_, ?_, holds_of ?_, holds_of ?_, ?_⟩
  all_goals first | decide +kernel | (unfold Room; decide +kernel)

/-- SkippedInstructionsOnlyAdvance: a short form and a long form whose condition fails, in ring 0, in ring 2 and on the always-on core. -/
theorem witness_skipped :
    let u := mach [] fun k => { k with st := 0x80, cw := [⟨0x900000000, 0x90000FFFF, 0x1FF⟩] }
    (Instr.div 0 .z).coreForm = some (0, .z, 1, 18) ∧ (Instr.div 0 .z).wellFormed = true ∧ CanIssue (mach [] id) 0 2 ∧ condHolds ((mach [] id).core 0) .z = false ∧ (Instr.div 0 .z).present 0 0 ∧
    (Instr.mtc 0 .lt 0xFF).coreForm = some (0, .lt, 2, 2) ∧ (Instr.mtc 0 .lt 0xFF).wellFormed = true ∧ condHolds ((mach [] id).core 0) .lt = false ∧ (Instr.mtc 0 .lt 0xFF).present 0 ((mach [] id).core 0).ring ∧
    (CanIssue u 0 2 ∧ condHolds (u.core 0) .lt = false ∧ condHolds (u.core 0) .z = false ∧ (u.core 0).ring = 2 ∧ (Instr.mtc 0 .lt 0x3F).present 0 2 ∧ (Instr.div 0 .z).present 0 2) ∧
    (CanIssue (mach [] id) 17 2 ∧ condHolds ((mach [] id).core 17) .z = false ∧ (Instr.div 17 .z).coreForm = some (17, .z, 1, 18) ∧ (Instr.mtc 17 .lt 0x7F).present 17 ((mach [] id).core 17).ring) := by
  refine ⟨?_, ?_, canIssue_of ?_, ?_, trivial, ?_, ?_, ?_, ?_, ⟨canIssue_of ?_, ?_, ?_, ?_, ?_, trivial⟩, ⟨canIssue_of ?_, ?_, ?_, ?_⟩⟩
  all_goals first | decide +kernel | (unfold Instr.present; decide +kernel)

/-- FloatArithmeticFollowsTable815, FloatComparesAndConversionsFollowTable816, FloatImmediatesAndEdgeResultsFollowTable817: the least normal operands, a NaN, and results that are not tiny. -/
theorem witness_float :
    fmtH.isSub (0x0400 : Word).toNat = false ∧ fmtH.isSub (0x7BFF : Word).toNat = false ∧ (fmtH.add .rne 0x0400 0x7BFF).tiny = false ∧ fmtS.isSub 0x00800000 = false ∧
    (fmtS.div .rne 0x3F800000 0x40000000).tiny = false ∧ (fmtS.sqrt .rne 0x40800000).tiny = false ∧ (fmtS.fma .rne 0x3F800000 0x40000000 (some 0x3F800000)).tiny = false ∧
    fmtS.isNaN 0x7FC00000 = true ∧ fmtS.isNaN 0x3F800000 = false ∧ (cvtFF fmtH fmtS .rne 0x3C00).tiny = false ∧ (cvtFF fmtS fmtH .rne 0x3F800000).tiny = false ∧
    Holds ((mach [0x3C00, 0x4000] id).core 0) ([] ++ (valueWords false 0x3C00 ++ valueWords false 0x4000)) ∧ ((mach [] id).core 0).fpp = false := by
  refine ⟨?_, ?_, ?_, ?_, ?_, ?_, ?_, ?_, ?_, ?_, ?_, holds_of ?_, ?_⟩ <;> decide +kernel

/-- FloatArithmeticFollowsTable815, FloatComparesAndConversionsFollowTable816: the greatest and the least normal numbers, a result that is not exact, one that overflows, and numbers inside and outside the integers. -/
theorem witness_roundings :
    FpNormal fmtH 0x7BFF ∧ FpNormal fmtH 0x8400 ∧ FpNormal fmtS 0x00800000 ∧ FpNormal fmtS 0xFF7FFFFF ∧ FpNormal fmtS 0 ∧
    ((fmtH.add .rne 0x7BFF 0x3C00).tiny = false ∧ (fmtH.add .rne 0x7BFF 0x3C00).flags % 8 < 4) ∧ (4 ≤ (fmtH.add .rup 0x7BFF 0x7BFF).flags % 8 ∧ (fmtH.add .rup 0x7BFF 0x7BFF).tiny = false) ∧
    (fpRat fmtH 0x3C00 ≠ 0 ∧ 0 ≤ fpRat fmtH 0x3C00) ∧ ((-32768 : Int) ≤ 32767 ∧ (-32768 : Int) ≤ fpRat fmtH 0x3C00 ∧ fpRat fmtH 0x3C00 ≤ (32767 : Int)) ∧
    ((32767 : Int) + 1 ≤ fpRat fmtH 0x7BFF ∧ fpRat fmtH 0xFBFF ≤ (-32768 : Int) - 1) := by
  have h1 : fpRat fmtH 0x3C00 = 1 := by
    have : fmtH.val 0x3C00 = .fin false 1024 (-10) := by decide +kernel
    simp [fpRat, this]; norm_num
  have h2 : fpRat fmtH 0x7BFF = 65504 := by
    have : fmtH.val 0x7BFF = .fin false 2047 5 := by decide +kernel
    simp [fpRat, this]; norm_num
  have h3 : fpRat fmtH 0xFBFF = -65504 := by
    have : fmtH.val 0xFBFF = .fin true 2047 5 := by decide +kernel
    simp [fpRat, this]; norm_num
  rw [h1, h2, h3]
  refine ⟨⟨?_, ?_, ?_⟩, ⟨?_, ?_, ?_⟩, ⟨?_, ?_, ?_⟩, ⟨?_, ?_, ?_⟩, ⟨?_, ?_, ?_⟩, ?_, ?_, ?_, ?_, ?_⟩
  all_goals decide +kernel

/-- RingAndVectorQueueInstructionsFollowTable818. -/
theorem witness_ring_accesses :
    blockPowered (mach [7, 2] id) 12 = true ∧ ((mach [7, 2] id).core 0).posted = [] ∧ Holds ((mach [7, 2] id).core 0) ([] ++ [7, 2]) ∧ Holds ((mach [7, 2] id).core 0) ([7] ++ [2]) ∧
    ({ mach [] id with aon := { State.reset.aon with fifo := [0x8001] } }).aon.fifo = 0x8001 :: [] ∧ (mach [] id).power.st = .run ∧
    Holds ((mach [0x10, 0, 0] id).core 0) ([] ++ [0x10, 0, 0]) ∧ pushOutcome (mach [] id) 0 0 0x10 = .accepted ∧ 7 < ((mach [] id).core 0).a.length ∧ ((mach [] id).core 0).stepped 7 16 = some 16 ∧
    ((mach [] fun k => { k with am := [⟨1, 0, 0x8000, 16⟩] }).core 0).stepped 0 16 = some 0x8000 := by
  refine ⟨?_, ?_, holds_of ?_, holds_of ?_, ?_, ?_, holds_of ?_, ?_, ?_, ?_, ?_⟩ <;> decide +kernel

/-- CoresTimersAndMicrocodeFollowTheirRules: a core to release, a timer at its value, an entry that passes and one that does not, a SWAP microprogram and two of three steps, one of them with the stack full and the last SUBST, and an illegal word with its vector. -/
theorem witness_cores :
    let s := { State.reset with cores := State.reset.cores.set 3 (Core.reset none) }
    let page : List (Word × Word) := (0x8240, 0x0800) :: List.replicate 15 (0, 0)
    let m := mach [1, 2] fun k => { k with de := page, msteps := [(0, 0x2000), (1, 0x0003)] }
    ((s.core 3).retired = false ∧ (s.core 3).running = false ∧ ∀ d, d < 17 → d ≠ 3 → (s.core d).role = some 3 → (s.core d).retired = true) ∧
    (((mach [] fun k => { k with tctl := [1, 0] }).core 0).tctl.getD 0 0).getLsbD 0 = true ∧ (((mach [] id).core 0).tcmp.getD 0 0).toNat ≤ (mach [] id).time.toNat ∧
    mayWritePage m 0 = true ∧ microCheck (m.core 0).msteps 0 0x8240 0x0800 = 0 ∧ microCheck [] 0 0x8240 0x0800 ≠ 0 ∧ inValidProgram (m.core 0) 0 = true ∧ inValidProgram (m.core 0) 1 = false ∧
    deValid 0x8240 = true ∧ dePop 0x8240 = 2 ∧ dePush 0x8240 = 2 ∧ deCycles 0x0800 = 2 ∧ stepInstr (winPage (m.core 0) 0).2 0 = 0x0003 ∧ stepLast (winPage (m.core 0) 0).2 0 = true ∧
    stepSubst (winPage (m.core 0) 0).2 0 = 0 ∧ (m.core 0).stack.length = 32 ∧ Holds (m.core 0) ([] ++ [1, 2]) ∧ illegalCause (mach [] id) 0 0x1400 0 = some 1 ∧
    (let p := mach [7] fun k => { k with de := List.replicate 15 (0x8120, 0x1000) ++ [(0x8120, 0x1010)], msteps := [(0, 0x4000), (1, 0x06F0), (3, 0x0100), (4, 0x2000), (5, 0x2106), (32, 0xC000), (33, 0x0600), (35, 0x0100), (36, 0x2000), (37, 0x6106)] }
     let g := (winPage (p.core 0) 0).2
     Holds (p.core 0) ([] ++ [7]) ∧ (p.core 0).stack.length = 32 ∧ deValid 0x8120 = true ∧ (p.core 0).ring ≤ deRingmax 0x8120 ∧ dePop 0x8120 = 1 ∧ dePush 0x8120 = 1 ∧
     (deStart 0x1000 = 0 ∧ stepSubst g 0 = 1 ∧ stepInstr g 0 / 256 = 0x06 ∧ stepLast g 0 = false ∧ stepInstr g 1 = 0x0100 ∧ stepLast g 1 = false ∧ stepSubst g 1 = 0 ∧ stepInstr g 2 = 0x2000 * 1 + 0x0106 ∧ stepLast g 2 = true ∧ stepSubst g 2 = 0) ∧
     (deStart 0x1010 = 16 ∧ stepSubst g 16 = 3 ∧ stepInstr g 16 / 256 = 0x06 ∧ stepLast g 16 = false ∧ stepInstr g 17 = 0x0100 ∧ stepLast g 17 = false ∧ stepSubst g 17 = 0 ∧ stepInstr g 18 = 0x2000 * 3 + 0x0106 ∧ stepLast g 18 = true ∧ stepSubst g 18 = 0) ∧
       microCheck (p.core 0).msteps 0 0x8120 0x1000 = 0 ∧ microCheck (p.core 0).msteps 15 0x8120 0x1010 = 0) ∧
    (let q := mach (List.replicate 32 7) fun k => { withA 0x900000000 k with de := (0x8100, 0x1800) :: List.replicate 15 (0, 0), msteps := [(1, 0x0817), (3, 0x0100), (4, 0x2000), (5, 0x0907 + 32 * 7)] }
     let g := (winPage (q.core 0) 0).2
     Holds (q.core 0) (List.replicate 31 7 ++ [7]) ∧ dePop 0x8100 = 1 ∧ dePush 0x8100 = 0 ∧ deStart 0x1800 = 0 ∧ (∀ j < 3, stepSubst g (0 + j) = 0 ∧ stepLast g (0 + j) = decide (j = 2)) ∧
       stepInstr g 0 = 0x0800 + 32 * 0 + 16 * b2n true + (7 : BitVec 4).toNat ∧ stepInstr g 1 = 0x0100 ∧ stepInstr g 2 = 0x0900 + 32 * 7 + 16 * b2n false + (7 : BitVec 4).toNat ∧ microCheck (q.core 0).msteps 0 0x8100 0x1800 = 0 ∧
       (∀ a ∈ addrsFrom (memOperand (q.core 0) 0 true 7).1 1, isLocal q 0 a = true ∧ poisoned q (ownKey 0 a) = false) ∧ winGrants (q.core 0) 0 (addrsFrom (memOperand (q.core 0) 0 true 7).1 1) = true ∧ (memOperand (q.core 0) 0 true 7).2 = some 0x900000007 ∧
       (∀ a ∈ addrsFrom (memOperand (q.core 0) 7 false 7).1 1, isLocal q 0 a = true) ∧ winGrants (q.core 0) 1 (addrsFrom (memOperand (q.core 0) 7 false 7).1 1) = true ∧ (memOperand (q.core 0) 7 false 7).2 = some 0x900000000) := by
  refine ⟨?_, ?_, ?_, ?_, ?_, ?_, ?_, ?_, ?_, ?_, ?_, ?_, ?_, ?_, ?_, ?_, holds_of ?_, ?_, ⟨holds_of ?_, ?_⟩, ⟨holds_of ?_, ?_⟩⟩ <;> decide +kernel

/-- A region of 8 by 1 pixels on port 0, admitted. -/
def dummyRegion : Region where
  id := 1
  req := 1
  port := 0
  rect := ⟨0, 0, 8, 1⟩
  mode := 0
  cls := 0
  deadline := none
  order := 0
  st := .admitted
  reason := .milestone
  kind := .run
  rkind := .run
  nkind := .run
  frame := 0
  line := none
  rframe := 0
  rline := none
  spanEnd := 0
  cur := false
  nxt := false
  tb := 0
  ab := 0
  inv := 0
  tgtDur := false
  splDur := false
  ef := 0
  hf := 0
  rf := 0
  heldE := 0
  heldH := 0
  heldR := 0
  holdMark := false
  cancelMk := false
  lost := false
  doubt := false
  starved := false
  wear := false
  parkN := none
  waitsFor := []
  serial := 0
  setCrc := 0
  spanB := 0
  own := none
  orig := none
  under := none

/-! Witnesses: the block as a whole, registers, memories and stops -/

/-- IdleStepsCountTheClocks: OFF, the last tick's fraction, and the one after it. -/
theorem witness_idle :
    State.reset.pending = [] ∧ State.reset.power.st ≠ .off ∧ ({ State.reset with power := { State.reset.power with st := .off } } : State).power.st = .off ∧
    ({ State.reset with timeFrac := 99967231 } : State).timeFrac + 32768 < 100000000 ∧
    (100000000 ≤ ({ State.reset with timeFrac := 99967232 } : State).timeFrac + 32768 ∧ ({ State.reset with timeFrac := 99999999 } : State).timeFrac < 100000000) := by decide +kernel

/-- WellFormedCommandsComplete and StepsKeepTheInvariant: a command whose operand has the length that its row asks, and a step from reset. -/
theorem witness_well_formed : (Instr.submissionEntryTake 15 (some (List.replicate 64 0))).wellFormed = true ∧ (Instr.aluiAdd 17 .hi true 0).wellFormed = true := by decide

theorem witness_step : ∃ t, step { State.reset with pending := [.nop 0 .al] } = .next t := ⟨_, rfl⟩

/-- RegisterAndDescriptorWritesFollowTheirFields: a ring that may not write, a reserved offset, read-only fields, a Plan field, a held lower word, RW and W1C fields of one word; and descriptors 0 and 4095, their first, last held and last words. -/
theorem witness_registers :
    let s := mach [] id
    let u := mach [] fun k => { k with st := 0xC0 }
    let d := { u with regs := { u.regs with held := (List.range 7).map fun i => (Reg.VE_DESC + 8 * 4095 + i, 0) } }
    (coreRuns s 0 = true ∧ blockPowered s 12 = true ∧ blockPowered { s with boot := { s.boot with mainOn := false } } 9 = true ∧ wmapWf regReset s.regs.val = true) ∧
    (ringWrites u (u.core 0).ring 5 = false ∧ ringWrites s (s.core 0).ring 5 = true ∧ ringWrites s 0 0xFFFF = true ∧ isFixedPattern 0x24100 = false ∧ findReg 0xFFFF = none) ∧
    (∃ f, findReg 1 = some (f, 0, 0) ∧ ∀ x ∈ f.fields, x.acc = .ro) ∧
    (∃ f, findReg 0x30001 = some (f, 0, 0) ∧ (∃ x ∈ f.fields, x.acc ≠ .ro) ∧ ∃ x ∈ f.fields, x.chg = .plan ∧ 16 * 0 ≤ x.hi ∧ x.lo < 16 * 0 + 16) ∧
    (∃ f, findReg 0x10102 = some (f, 0, 2) ∧ (∃ x ∈ f.fields, x.acc ≠ .ro) ∧ (∀ x ∈ f.fields, x.chg ≠ .plan) ∧ 2 + 1 < f.words) ∧
    (∃ f, findReg 0x10103 = some (f, 0, 3) ∧ (∃ x ∈ f.fields, x.acc ≠ .ro) ∧ (∀ x ∈ f.fields, x.chg ≠ .plan) ∧ 1 < f.words ∧ 3 + 1 = f.words ∧ ∀ u v, writeAction u f.blk f.off 0 v = none) ∧
    (∃ f, findReg 5 = some (f, 0, 0) ∧ (∃ x ∈ f.fields, x.acc ≠ .ro) ∧ (∀ x ∈ f.fields, x.chg ≠ .plan) ∧ f.words = 1 ∧ ¬ (f.blk = 11 ∧ f.off = 0x40) ∧ ∀ u v, writeAction u f.blk f.off 0 v = none) ∧
    (∃ f, findReg 0 = some (f, 0, 0) ∧ (∃ x ∈ f.fields, x.acc = .w1c) ∧ (∀ x ∈ f.fields, x.chg ≠ .plan) ∧ f.words = 1 ∧ ∀ u v, writeAction u f.blk f.off 0 v = none) ∧
    descOwner (u.regSet Reg.VE_DPART 1) 0 < (u.core 0).ring ∧ (u.core 0).ring ≤ descOwner u 4095 ∧ (∀ j < 7, assocGet d.regs.held (Reg.VE_DESC + 8 * 4095 + j) = (List.replicate 7 (0 : Word))[j]?) := by
  refine ⟨?_, ?_, ⟨_, rfl, ?_⟩, ⟨_, rfl, ?_⟩, ⟨_, rfl, ?_⟩, ⟨_, rfl, ?_, ?_, ?_, ?_, fun _ _ => rfl⟩, ⟨_, rfl, ?_, ?_, ?_, ?_, fun _ _ => rfl⟩, ⟨_, rfl, ?_, ?_, ?_, fun _ _ => rfl⟩, ?_⟩ <;> decide +kernel

/-- HostAccessesFollowR366AndR369: the last offsets of the windows, the first of the reserved ones; BAR2's last byte of HBM, a state-store byte, and an unmapped one. -/
theorem witness_host :
    let s := { State.reset with hif := { State.reset.hif with linkUp := true } }
    let h := hostAccess s
    s.boot.mainOn = true ∧ (∃ r, findReg (0x33FFFC / 0x40000 * 65536 + 0x33FFFC % 0x40000 / 4) = r ∧ r = none) ∧ findReg 5 ≠ none ∧
    (0x24000 ≤ 0x24000 ∧ 0x24000 < 0x24400 ∨ 0x28000 ≤ 0x24000 ∧ 0x24000 < 0x30000) ∧ ¬ (0x24000 ≤ 0x24400 ∧ 0x24400 < 0x24400 ∨ 0x28000 ≤ 0x24400 ∧ 0x24400 < 0x30000) ∧
    ((3 : BitVec 4).getLsbD 0 = true ∧ (3 : BitVec 4).getLsbD 1 = true) ∧ ((2 : BitVec 4).getLsbD 0 && (2 : BitVec 4).getLsbD 1) = false ∧
    (∃ f, findReg 5 = some (f, 0, 0) ∧ f.words = 1 ∧ (5 : Nat) ≠ Reg.PM_PIN ∧ isFixedPattern 5 = false) ∧
    (bar2At 0x7FFFFFFFF = some (0x3FFFFFFFF, 1, true) ∧ storeKey h 0x3FFFFFFFF = some 0x3FFFFFFFF ∧ inStatePlane h 0x3FFFFFFFF = false ∧ wmapWf (fun _ => 0) h.mem = true) ∧
    bar2Writable h 0xC00000000 = false ∧ (∀ j < 2, bar2Mapped h (0x807FFFFFE + j) = true ∧ (bar2Byte h (0x807FFFFFE + j)).isSome = true) ∧ bar2Mapped h 0xBFFFFFFFF = false ∧
    (let p := hostAccess (poisonAt s 0x3FFFFFFFF)
     (∀ j < 2, bar2Mapped p (0x7FFFFFFFE + j) = true) ∧ bar2Byte p 0x7FFFFFFFF = none) := by
  refine ⟨?_, ⟨_, rfl, ?_⟩, ?_, ?_, ?_, ?_, ?_, ⟨_, rfl, ?_⟩, ?_⟩ <;> decide +kernel

/-- PlacesOfAddressesAreDistinct: the first and the last address of each memory. -/
theorem witness_places :
    let s := { State.reset.regSet Reg.MEM_SS_CFG 0x3B00 with memc := { State.reset.memc with retiredPc := some 63 } }
    spaceOf s 0 = .hbm ∧ spaceOf s 0x3EFFFFFFF = .hbm ∧ spaceOf s 0x800000000 = .vs ∧ spaceOf s 0x803FFFFFF = .vs ∧ 0x3FFFFFFF < s.ssWords := by decide +kernel

/-- MemoryErrorsAreCountedAndRetired: a corrected error at the limit and over it, uncorrectable ones first and again, a bank's copy with one spare left, and the two completions. -/
theorem witness_memory_errors :
    let s := State.reset
    let n (k : Nat) := (List.range k).map fun _ => (pcOf s 0x3FFFFFFFF, 0)
    let limit := 16 * s.regF Reg.MEM_CE_LIMIT 15 8
    wmapWf regReset s.regs.val = true ∧ s.regF Reg.MEM_SCRUB 15 8 ≠ 0 ∧ s.regF Reg.MEM_SCRUB 7 0 ≠ 0 ∧ (s.regSet Reg.MEM_SCRUB 0).regF Reg.MEM_SCRUB 15 8 = 0 ∧ (s.regSet Reg.MEM_SCRUB 0).regF Reg.MEM_SCRUB 7 0 = 0 ∧
    spaceOf s 0x3FFFFFFFF = .hbm ∧ limit ≠ 0 ∧ recent s (n (limit - 1)) (pcOf s 0x3FFFFFFFF) + 1 ≤ limit ∧ limit < recent s (n limit) (pcOf s 0x3FFFFFFFF) + 1 ∧ s.memc.retiredPc = none ∧
    recent s s.memc.uePc (pcOf s 0x3FFFFFFFF) = 0 ∧ 0 < recent s (n 1) (pcOf s 0x3FFFFFFFF) ∧
    recent s s.memc.ceBank (bankOf 0x803FFFFFF) < s.regF Reg.MEM_CE_LIMIT 7 0 ∧ s.memc.copying = none ∧ s.memc.copyWait = [] ∧ s.memc.spares.contains (some (bankOf 0x803FFFFFF)) = false ∧
    (List.replicate 15 (some 0) ++ [none] : List (Option Nat)).contains none = true ∧ ({ s.memc with migrating := true } : MemCtl).migrating = true ∧
    (List.replicate 15 (some 0) ++ [none] : List (Option Nat)).findIdx? (·.isNone) = some 15 ∧ (List.replicate 15 (some 0) ++ [none] : List (Option Nat)).contains (some 1) = false := by decide +kernel

/-- StopsWriteTheJournal: each source of a VIN-fail, the credit wait, a first and a later slot, both ends of the hold-up, and a channel's write. -/
theorem witness_stops :
    let s := State.reset
    let r : Region := { dummyRegion with tgtDur := false }
    let e : Nat × Nat × Nat × List (Nat × Word) := (3, 2, 1, [(0xA00000000, 1)])
    let v := { s with boot := { s.boot with jrnSlot := some [] }, power := { s.power with vinStep := 3, vinf := true } }
    let m := { s with memc := { s.memc with ssq := [e] }, disp := { s.disp with regions := [r] } }
    wmapWf regReset s.regs.val = true ∧ wmapWf (fun _ => 0) s.mem = true ∧ s.boot.mainOn = true ∧ s.power.vinf = false ∧ s.power.vinStep = 0 ∧
    (0 : BitVec 9).toNat < vinThr s ∧ (s.regSet Reg.RL_VINCFG 0x8000).regF Reg.RL_VINCFG 15 15 = 1 ∧ (s.boot.pwrEn = true ∧ ({ s.boot with mainPg := false } : Boot).mainPg = false) ∧
    slotTaken { s with power := { s.power with vinStep := 1 }, boot := { s.boot with outcome := .ready } } = true ∧
    (v.boot.jrnSlot = some [] ∧ v.power.vinStep = 3 ∧ v.power.vinf = true ∧ v.side.curReset = none) ∧
    ((ssNext m 3 == some e) = true ∧ dozing m = false ∧ ssTries m e < 3 ∧ 3 ≤ ssTries { m with memc := { m.memc with ssFails := [(3, 2, 1, 3)] } } e ∧ (s.regSet Reg.MEM_SS_CFG 0x3B00).ssWords ≠ 0) ∧
    (e.2.1 = 2 ∧ m.region e.2.2.1 = some r ∧ r.tgtDur = false ∧ m.memc.ssLost = false ∧ m.disp.stopped = false ∧ ∀ x ∈ m.memc.ssq.erase e, ¬ (x.2.1 = 2 ∧ x.2.2.1 = e.2.2.1)) := by
  refine ⟨?_, ?_, ?_, ?_, ?_, ?_, ?_, ?_, ?_, ?_, ?_, ?_, ?_, ?_, ?_, ?_, ?_⟩ <;> decide +kernel

/-! Witnesses: the vector engine, the dispatcher, the slate link and the rails -/

/-- A device with one queue's command in progress. -/
def withQueue (v : VQueue → VQueue) : State := State.reset.updQueue 0 v

/-- A command at word 0: fixed pattern 3 (a fill), class 2, IRQ, one element, no record. -/
def fillWords : List Word := [0x0E80, 1, 0, 0, 0, 0, 0, 0, 0, 0, 0, 0, 0, 0, 0xFFFF, 0xD009]
def filled : State := { State.reset with mem := [(0, 0x0E80), (1, 1), (14, 0xFFFF), (15, 0xD009)] }
def withCrc (ws : List Word) : List Word := ws ++ [BitVec.ofNat 16 (crc16Words ws)]
def fillEntry : VEntry := ⟨0, 0, none⟩
def fillCmd : VCmd := fetchedCmd filled 0 fillEntry

/-- VectorCommandsRunFromFetchToCompletion: an empty memory's CRC, a sound command, its one segment, its wave, and its end. -/
theorem witness_vector_commands :
    let s := withQueue fun v => { v with waiting := [fillEntry] }
    let t := filled.updQueue 0 fun v => { v with waiting := [fillEntry] }
    let r := filled.updQueue 0 fun v => { v with prog := [fillCmd] }
    let c : VCmd := { fillCmd with nextSeg := 1 }
    (dozing s = false ∧ storeWaits s 0 = false ∧ 0 < s.ve.queues.length ∧ (s.queue 0).waiting = [fillEntry] ∧ (s.queue 0).prog = [] ∧ (s.queue 0).stopped = false ∧ (s.queue 0).flushing = false ∧
      (∀ a ∈ cmdWords 0, poisoned s a.toNat = false) ∧ accessOk s 0 (cmdWords 0) false = true ∧ fetchCheck s 0 0 ((List.range 16).map fun i => memRead s (0 + i)) = some (.badCrc, 0) ∧ crc16Words (((List.range 16).map fun i => memRead s (0 + i)).take 15) ≠ wordAt ((List.range 16).map fun i => memRead s (0 + i)) 15) ∧
    (fetchCheck t 0 0 ((List.range 16).map fun i => memRead t (0 + i)) = none ∧ slotsBusy t (cmdSlotsW fillWords) = false) ∧
    ((servingPipes r).contains 31 = true ∧ r.power.throttle = false ∧ r.ve.engFault = false ∧ replayFor r 31 = none ∧ pickQueue r = some 0 ∧ startable (r.queue 0) = some fillCmd ∧ fillCmd.usesD = false) ∧
    (c.final = none ∧ c.fault = none ∧ c.replay = [] ∧ c.waveEnd ≤ c.nextSeg ∧ c.waveEnd = c.segs ∧ { c with words := fillWords.set 1 0x3000, nextSeg := 32 }.waveEnd ≠ { c with words := fillWords.set 1 0x3000, nextSeg := 32 }.segs ∧ wmapWf (fun _ => 0) filled.mem = true) ∧
    (({ fillCmd with final := some 0 } : VCmd).final = some 0 ∧ fillCmd.entry.host = none ∧ cmdCrec fillCmd.words = 0xFFFF ∧ untrusted fillCmd 0 = false ∧ cmdIrq fillCmd.words = true ∧ (0 : Word) ≠ 0x0002 ∧ wmapWf regReset State.reset.regs.val = true) ∧
    (let d : VCmd := { fillCmd with words := withCrc ((fillWords.take 14) ++ [0xFFFD]) }
     let u := filled.regSet Reg.VE_QCBASE 0x800 3
     let a := u.reg (Reg.VE_QCBASE + 4 * 0) 3 % 2 ^ 36 + 8 * cmdCrec d.words
     cmdCrec d.words ≠ 0xFFFF ∧ untrusted d 0 = false ∧ accessOk u 0 ((List.range 8).map fun i => ((a + i : Nat) : Int)) true = true ∧ (∀ i < 8, storeKey u (a + i) = some (a + i))) := by
  refine ⟨?_, ?_, ?_, ?_, ?_, ?_⟩ <;> decide +kernel

/-- QueuesPipesAndBuildersFollowChapter3. -/
theorem witness_pipes :
    let c : VCmd := { fillCmd with nextSeg := 1, bufs := [⟨0, 33, [], 0, none⟩] }
    let s := filled.updQueue 15 fun v => { v with prog := [c] }
    let e := { s with ve := { s.ve with last := [(33, 15, 0)] } }
    let b : State := { State.reset with ve := { State.reset.ve with builds := [none, some ⟨15, 0, false, [], [], 0, [], 0⟩] } }
    15 < State.reset.ve.queues.length ∧ driveSeg e 33 = none ∧ (e.ve.last.find? (·.1 == 33) = some (33, 15, 0) ∧ (e.queue 15).prog = [c] ∧ c.bufs.any (fun y => y.seg == 0 && y.pipe == 33) = true ∧
      c.erred.find? (·.1 == 0) = none ∧ pipeE24 e 33 = 0) ∧ 33 ∉ State.reset.ve.retired ∧
    (b.ve.builds.getD 1 none = some ⟨15, 0, false, [], [], 0, [], 0⟩ ∧ 15 < b.ve.slots.length ∧ namedSlots b = [] ∧ dozing b = false ∧ b.ve.buildQ = [] ∧ wmapWf regReset b.regs.val = true) ∧
    (let d : DriveCmd := ⟨0, 7, 1, 0, 63, 0, 64, 1, 0, true, 32, [(31, 0)], [], []⟩
     let s := { State.reset with disp := { State.reset.disp with drives := [d] } }
     driveSeg s 0 = some (0, 31) ∧ (s.disp.drives[0]? == some d) = true ∧ d.erred.find? (·.1 == 31) = none ∧ pipeE24 s 0 = 0) := by
  refine ⟨?_, ?_, ?_, ?_, ?_, ?_⟩ <;> decide +kernel

/-- A plan whose roof of 16 by 8 pixels has one slate, of port 0, at (8, 0). -/
def roof : List Word := List.replicate 8 0 ++ ([1, 6, 0] ++ [16, 8, 8, 0, 8, 8] ++ [0, 0]) ++ ([2, 64, 0] ++ (0x8000 :: List.replicate 63 0) ++ [0, 0])

/-- An attached slate of 8 by 8 pixels. -/
def slate0 : Slate := ⟨[], 7, 8, 8, 32, 100000, [], [], 0, 0, List.replicate 4 0, none, none, 0, false⟩

/-- Port 0 ACTIVE with a slate whose set holds modes 0 and 13, enabled on course 0. -/
def slated (f : Port → Port) : State :=
  let w := (List.replicate 32 (0 : Word)).set 5 0x2001
  let s := (State.reset.regSet Reg.SL_PCFG 0x8000)
  let w := ((w.set 26 (wd (s.regF Reg.RL_CO_VSH 7 0))).set 27 (wd (s.regF Reg.RL_CO_VSM 7 0))).set 28 (wd (s.regF Reg.RL_CO_VSR 7 0))
  { s with boot := { s.boot with plan := roof }, sets := some ⟨w, []⟩ :: List.replicate 63 none,
           ports := f { Port.reset with st := .active, drivable := true, slate := some slate0, set := some 0, d0 := true, d1 := true, u := true, buf := 4, limit := 4 } :: List.replicate 63 Port.reset }

/-- A command taken from a ring and not started. -/
def tk (op : Byte) (body : List Byte) : Taken := ⟨5, op, 1, false, body, 9, false, false, 0, 0, 0, 0, 0, false, 0⟩

/-- `s` with a command taken on ring 15. -/
def onRing (s : State) (t : Taken) : State := s.updRing 15 fun r => { r with taken := [t] }

/-- A waiting request of ring 15. -/
def req0 : Request := ⟨1, 15, 5, 9, ⟨8, 0, 8, 8⟩, 13, 1, none, true, false, false, false, false, 0, false, []⟩

/-- RequestsFormAndFollowTable66: a full slate's rectangle and the highest mode; CANCEL, HOLD and RESUME with and without a request. -/
theorem witness_requests :
    let b : List Byte := [0, 0, 0, 0, 0, 0, 0, 0, 8, 0, 0, 0, 8, 0, 8, 0, 13, 0, 0, 0, 0, 0, 0, 0]
    let s := onRing (slated id) (tk 0x30 b)
    let full : Rect := ⟨(tk 0x30 b).field 8 2, (tk 0x30 b).field 10 2, (tk 0x30 b).field 12 2, (tk 0x30 b).field 14 2⟩
    let named : List Byte := [0, 0, 0, 0, 0, 0, 0, 0, 15, 0, 5, 0]
    let w := { slated id with disp := { State.reset.disp with requests := [req0] } }
    let x : Region := { dummyRegion with st := .admitted }
    let m := { slated id with disp := { State.reset.disp with requests := [{ req0 with waiting := false }], regions := [x] } }
    let y : Region := { dummyRegion with st := .parked, reason := .hold }
    let n := { m with disp := { m.disp with regions := [y] } }
    (s.startable 15 5 0x30 = some (tk 0x30 b) ∧ (∀ x ∈ s.disp.requests, ¬ (x.ring = 15 ∧ x.waiting = true)) ∧ (tk 0x30 b).field 16 1 = 13 ∧ admitCheck s full (some 13) = none ∧
      ({ s.side with blank := true } : Side).blank = true) ∧
    (s.disp.sleeping = false ∧ s.side.blank = false ∧ s.side.msgs = [] ∧ serviceLost s = false ∧ s.memc.ssLost = false ∧ s.overlaps 0 ⟨0, 0, 8, 8⟩ = [] ∧ s.parts full = [(some 0, ⟨0, 0, 8, 8⟩)] ∧ s.countOn 0 < 16 ∧ s.countAll < 512 ∧
      ∀ x ∈ s.disp.requests, x.id ≤ s.disp.nextId) ∧
    (w.disp.requests.find? (fun x => x.ring == 15 && x.waiting) = some req0 ∧ req0.holdMark = false ∧ w.parts req0.rect = [(some 0, ⟨0, 0, 8, 8⟩)] ∧ w.overlaps 0 ⟨0, 0, 8, 8⟩ = []) ∧
    (namedRequest s (tk 0x31 named) = none ∧ (onRing s (tk 0x31 named)).startable 15 5 0x31 = some (tk 0x31 named) ∧ (onRing s (tk 0x32 named)).startable 15 5 0x32 = some (tk 0x32 named) ∧
      (onRing s (tk 0x33 named)).startable 15 5 0x33 = some (tk 0x33 named)) ∧
    (namedRequest w (tk 0x31 named) = some req0 ∧ req0.waiting = true ∧ w.disp.requests.Pairwise (fun a b => a.id ≠ b.id) ∧ w.disp.regions.all (fun y => !(y.req == req0.id && y.live)) = true) ∧
    (namedRequest m (tk 0x32 named) = some { req0 with waiting := false } ∧ m.regionsOf 1 = [x] ∧ m.disp.regions.Pairwise (fun a b => a.id ≠ b.id) ∧ x ∈ m.disp.regions ∧ x.st = .admitted) ∧
    (namedRequest n (tk 0x33 named) = some { req0 with waiting := false } ∧ n.regionsOf 1 = [y] ∧ y.st = .parked ∧ y.reason = .hold) := by
  refine ⟨?_, ?_, ?_, ?_, ?_, ?_, ?_⟩ <;> decide +kernel

/-- RegionsAndCourseFramesMoveOn: a region at each of its ends, one whose span starves, and a course at each point of its frame. -/
theorem witness_regions :
    let s (x : Region) := { slated id with disp := { State.reset.disp with regions := [x] } }
    let up := (((slated id).regSet Reg.DSP_STARVE 1).takeEffect Reg.DSP_STARVE).updCourse 0 fun c => { c with rail := .up }
    let x : Region := { dummyRegion with tgtDur := true, splDur := true }
    let e := { up with disp := { up.disp with regions := [x] } }
    let r := (slated id).regSet Reg.DSP_CO_CFG 0x7810
    let c : Course := { Course.reset with planned := true, rate := 120 }
    let l := { r with courses := c :: List.replicate 7 Course.reset, time := 833333 }.regSet Reg.DSP_CO_FRAMES 1 2
    ((s dummyRegion).region dummyRegion.id = some dummyRegion ∧ (s dummyRegion).memc.ssLost = false ∧ (s dummyRegion).disp.stopped = false ∧ dozing (s dummyRegion) = false ∧ dummyRegion.tgtDur = false ∧ dummyRegion.splDur = false ∧ ssDue (s dummyRegion) 2 1 = true ∧ ssDue (s dummyRegion) 3 1 = true ∧
      dummyRegion.parkN = none ∧ dummyRegion.cancelMk = false ∧ (s dummyRegion).request dummyRegion.req = none) ∧
    ((s { dummyRegion with st := .done }).region 1 = some { dummyRegion with st := .done }) ∧
    (e.region x.id = some x ∧ eligible e x = true ∧ e.eff Reg.DSP_STARVE ≠ 0) ∧ (s { dummyRegion with st := .closing }).region 1 = some { dummyRegion with st := .closing } ∧
    (0 < r.courses.length ∧ (r.course 0).planned = false ∧ (r.course 0).pathStop = false ∧ courseRate r 0 ≠ 0) ∧
    (c.planned = true ∧ c.frameOpen = false ∧ l.reg (Reg.DSP_CO_FRAMES + 8 * 0) 2 ≠ 0 ∧ (l.course 0).startAt.toNat + periodOf (l.course 0).rate ≤ l.time.toNat ∧ wmapWf regReset l.regs.val = true) ∧
    (c.rail = .off ∧ ({ c with frameOpen := true } : Course).frameOpen = true) ∧ (r.portsOf 0).all (fun p => (r.port p).frame.isNone) = true := by
  refine ⟨?_, ?_, ?_, ?_, ?_, ?_, ?_, ?_⟩ <;> decide +kernel

/-- BucketsAuditsHeatAndLostLinksTakeEffect: buckets at and below their depth, a hot course at the least rate that lowers, one to raise, a stale reading and a lost link. -/
theorem witness_buckets :
    let s := State.reset
    let x : Region := { dummyRegion with heldH := 1 }
    let h := { (slated id).regSet Reg.DSP_CO_CFG 0x1E10 with disp := { s.disp with hbucket := -1, regions := [x] } }
    let r := (State.reset.regSet Reg.DSP_CO_CFG 0x1E10).updCourse 0 fun c => { c with heatRate := 25 }
    s.disp.auditOk = true ∧ s.disp.ebucket ≤ bucketDepth s ∧ s.disp.hbucket ≤ bucketDepth s ∧
    (h.disp.hbucket < 0 ∧ (List.range 8).filter (fun x => courseRate h x ≠ 0 && heatInProgress h x ≠ 0) = [0] ∧ 30 ≤ h.regF (Reg.DSP_CO_CFG + 8 * 0) 14 8 ∧ (h.course 0).heatRate = 0 ∧ 0 < h.courses.length) ∧
    ((bucketDepth r : Int) < 2 * r.disp.hbucket ∧ (List.range 8).find? (fun x => (r.course x).heatRate ≠ 0) = some 0) ∧
    (let u := { slated fun t => { t with tempOk := true, tempAt := 7 } with time := 100000007 }.regSet Reg.WF_TSTALE 1
     (u.port 0).tempOk = true ∧ (u.port 0).staleT = false ∧ u.reg Reg.WF_TSTALE ≠ 0 ∧ (u.port 0).tempAt.toNat + 100000000 * u.reg Reg.WF_TSTALE ≤ u.time.toNat ∧ 0 < u.ports.length) ∧
    (((slated fun t => { t with st := .detect }).port 0).slate.isSome = true ∧ ((slated fun t => { t with st := .detect }).port 0).st ≠ .active) := by
  refine ⟨?_, ?_, ?_, ?_, ?_, ?_, ?_⟩ <;> decide +kernel

/-- A frame that port 0 sends. -/
def tx (began : Bool) (lines : List Nat) : TxFrame := ⟨1, 100, lines, [3], 1, began, [], none, []⟩

/-- StreamPacketsAreSentCreditedAndReplayed: the last packet of the replay window and of LIMIT, a replay, a CREDIT that meets R299 at its bounds and one past LIMIT, NAK at NEXT. -/
theorem witness_stream :
    let s (f : TxFrame) := slated fun t => { t with frame := some f, next := 3 }
    let q := slated fun t => { t with next := 31, limit := 32, buf := 32 }
    let r := slated fun t => { t with resend := [.frameEnd true 0 1], replayBuf := [(.frameEnd false 0 1, 7)], next := 1 }
    0 < (s (tx false [])).ports.length ∧ ((s (tx false [])).port 0).st = .active ∧ (s (tx false [])).disp.stopped = false ∧ ((s (tx false [])).course ((s (tx false [])).courseOf 0)).pathStop = false ∧
    (((s (tx false [3])).port 0).resend = [] ∧ ((s (tx false [3])).port 0).frame = some (tx false [3]) ∧ seqLt ((s (tx false [3])).port 0).next ((s (tx false [3])).port 0).limit = true ∧
      (((s (tx false [3])).port 0).next - ((s (tx false [3])).port 0).acked).toNat < 32 ∧ ((q.port 0).next - (q.port 0).acked).toNat < 32 ∧ seqLt (q.port 0).next (q.port 0).limit = true) ∧
    ((tx true [3]).began = true ∧ (tx true [3]).lines = 3 :: [] ∧ lineReady ((s (tx true [3])).course ((s (tx true [3])).courseOf 0)).now [] 3 = true ∧ lineDriven (s (tx true [3])) 0 3 = true ∧ (s (tx true [3])).poison = []) ∧
    ((tx true []).began = true ∧ (tx true []).lines = [] ∧ (tx true []).endSseq = none) ∧
    ((r.port 0).resend = .frameEnd true 0 1 :: [] ∧ ∀ e ∈ (r.port 0).replayBuf, e.2 < 8) ∧
    (creditOk (q.port 0) 31 31 63 = true ∧ (q.port 0).frame = none) ∧ (creditOk (q.port 0) 31 0 64 = false ∧ (q.port 0).grace = false ∧ (q.port 0).fails = [] ∧ wmapWf regReset q.regs.val = true) ∧
    (let f : TxFrame := { tx true [] with cred := [], sentLn := [(1, 3)], endSseq := some 2 }
     let o := (s f).port 0
     creditOk o 3 2 6 = true ∧ (f.endSseq.any fun e => seqLt e 2) = false ∧ creditOk o 3 3 7 = true ∧ (f.endSseq.any fun e => seqLt e 3) = true ∧ (3 : Word) = o.next ∧
       ∀ y ∈ f.all, y ∈ f.cred ++ (f.sentLn.filter fun e => seqLt e.1 3).map (·.2)) ∧
    ((q.port 0).xfers = [] ∧ ∀ x ∈ (q.port 0).trans, x.due = false) ∧ (seqLe (q.port 0).acked 31 = true ∧ seqLe 31 (q.port 0).next = true) ∧ (seqLe (q.port 0).acked 32 && seqLe 32 (q.port 0).next) = false ∧ (q.port 0).acked ≠ (q.port 0).next := by
  refine ⟨?_, ?_, ?_, ?_, ?_, ?_, ?_, ?_, ?_, ?_, ?_, ?_, ?_, ?_⟩ <;> decide +kernel

/-- A LINE packet of 61 groups is 196 bytes, and its CRC over all of them is 0 (Table 10.6's example, R288). -/
theorem test_line_packet : (DownPkt.line false 0x1201 0 1600 [(125, 61, List.replicate 183 0)]).bytes.length = 196 ∧
    crc32Bytes (DownPkt.line false 0x1201 0 1600 [(125, 61, List.replicate 183 0)]).bytes = 0 := by decide +kernel

/-- BridgeReportsAndTransactionsAreActedOn: lanes that count and that are left, and transactions of each kind, one of them given up. -/
theorem witness_bridge :
    let s := (slated fun t => { t with statSeen := true })
    let c := s.regSet Reg.SL_CFG 1
    let c := c.takeEffect Reg.SL_CFG
    let z := s.regSet Reg.SL_CFG 0
    let z := z.takeEffect Reg.SL_CFG
    let x : Trans := ⟨15, false, 0, 1, [], 2, true, false, false⟩
    let w : Trans := ⟨15, true, 0xF00000, 1, [0], 3, false, false, false⟩
    let a := slated fun t => { t with trans := [x] }
    let y : Trans := { w with dead := true }
    let g := slated fun t => { t with trans := [y] }
    let b := slated fun t => { t with trans := [w], lifeW := some ⟨false, 1, 3, ⟨true, 0, 4, [0, 0, 0, 0]⟩, none⟩ }
    (0 < s.ports.length ∧ wmapWf regReset s.regs.val = true ∧ (s.port 0).st = .active ∧ (s.port 0).frame = none ∧ (0 : Byte).getLsbD 0 = false ∧ z.eff Reg.SL_CFG % 256 = 0) ∧
    ((c.port 0).d0 = true ∧ (c.port 0).statSeen = true ∧ c.eff Reg.SL_CFG % 256 ≠ 0 ∧ c.eff Reg.SL_CFG % 256 * 1 < (2 : Byte).toNat) ∧
    ((s.port 0).trans.find? (·.tag == 15) = none ∧ (a.port 0).trans.find? (·.tag == 15) = some x ∧ (b.port 0).trans.find? (·.tag == 15) = some w) ∧
    ((x.dead = false ∧ w.dead = false ∧ y.dead = true ∧ (g.port 0).trans.find? (·.tag == 15) = some y ∧ (g.port 0).xfers = [] ∧ ∀ e ∈ (g.port 0).trans, e.due = false) ∧ (0 : Byte) ≠ 3 ∧ (a.port 0).xfers = [] ∧ ¬ (x.write = true ∧ 0xF00000 ≤ x.addr ∧ x.addr < 0xF80000) ∧ ¬ (x.write = false ∧ x.addr = 0xFF0000)) ∧
    (w.write = true ∧ 0xF00000 ≤ w.addr ∧ w.addr < 0xF80000 ∧ (b.port 0).lifeW = some ⟨false, 1, 3, ⟨true, 0, 4, [0, 0, 0, 0]⟩, none⟩ ∧ 2 < 3) ∧ x.retries < 3 ∧ (3 ≤ w.retries ∧ (b.port 0).st = .active ∧ ¬ (0xFE0000 ≤ x.addr ∧ x.addr < 0xFE0100)) ∧ (x.busy = true ∧ mayInsert (a.port 0) = true ∧ (∀ y ∈ (a.port 0).trans, y.due = false) ∧ ∀ y ∈ (b.port 0).trans, y.due = false) ∧
    (upCheck (withCrc16 [0xC0, 3, 1, 31, 0, 1]) = .intact ∧ upCheck (withCrc16 [0xC0, 7, 1, 31, 0, 1]) = .reservedField ∧ upCheck (withCrc16 [0xC0, 3, 1, 31, 0]) = .corrupted ∧
      upCheck (withCrc16 [0xD0, 0]) = .protocol ∧ upCheck (withCrc16 [0xB0, 5, 0, 0]) = .protocol ∧ upCheck [0xC0, 3, 1, 31, 0, 1, 0, 0] = .corrupted) := by
  refine ⟨?_, ?_, ?_, ?_, ?_, ?_, ?_, ?_, ?_⟩ <;> decide +kernel

/-- PortsTrainByTable107: each state of the port, at the bounds of its counts. -/
theorem witness_training :
    let al (n : Nat) := (slated fun t => { t with st := .align, pings := n }).port 0
    let cf (n : Nat) := (slated fun t => { t with st := .config, cfgTries := n }).port 0
    let rt := (slated fun t => { t with st := .retrain, boot := some 9, newSlate := false }).port 0
    ((al 3).st = .align ∧ (al 3).pings < 4 ∧ 4 ≤ (al 4).pings ∧ (al 3).frame = none ∧ (false || true) = true ∧ 31 ≤ (31 : Byte).toNat) ∧ (cf 1).st = .config ∧ (cf 1).cfgTries < 2 ∧ 2 ≤ (cf 2).cfgTries ∧
    creditOk (cf 1) 0 0 4 = true ∧ (cf 1).frame = none ∧ ((slated id).port 0).st = .active ∧ (rt.st = .retrain ∧ (rt.d0 && false || rt.d1 && true) = true ∧ rt.boot = some 9 ∧ rt.newSlate = false) ∧ (1 : Byte) ≠ rt.ptag ∧ (rt.boot ≠ some 8 ∧ rt.frame = none) ∧
    (let z := slated fun t => { t with st := .off }
     let d := { z with power := { z.power with st := .doze } }
     (z.port 0).st = .off ∧ z.portEn 0 = true ∧ d.power.st = .doze ∧ wakeEnabled d 1 = true ∧ wmapWf regReset d.regs.val = true ∧ (∀ r ∈ z.regionsOn 0, r.lost = false)) := by
  refine ⟨?_, ?_, ?_, ?_, ?_, ?_, ?_, ?_, ?_, ?_, ?_⟩ <;> decide +kernel

/-- LifeIsWrittenAndCounted: no copy yet, copies up to the last generation but one, and a lit course. -/
theorem witness_life :
    let s (a b : Option Nat) := slated fun t => { t with slate := some { slate0 with genA := a, genB := b } }
    let l := (s none none).updCourse 0 fun c => { c with flEn := true, flPwm := true, dutyEff := 1 }
    (((s none none).port 0).slate = some { slate0 with genA := none, genB := none } ∧ ((s none none).port 0).lifeW = none ∧ ((s none none).port 0).st = .active) ∧
    (((s (some 4294967294) (some 4294967293)).port 0).slate.map (fun x => (x.genA, x.genB)) = some (some 4294967294, some 4294967293) ∧ ((s (some 4294967294) none).port 0).slate.map (fun x => (x.genA, x.genB)) = some (some 4294967294, none)) ∧
    (l.portEn 0 = true ∧ (l.course (l.courseOf 0)).flEn = true ∧ (l.course (l.courseOf 0)).flPwm = true ∧ (l.course (l.courseOf 0)).dutyEff ≠ 0) := by
  refine ⟨?_, ?_, ?_⟩ <;> decide +kernel

/-- CoursesPowerOnAndOffInSteps and RailFaultsTakeTheirPath: a course in each of its states, at the first and the last step, and the limit of its retries. -/
theorem witness_rails :
    let s (f : Course → Course) := State.reset.updCourse 7 f
    let up : Course := { Course.reset with rail := .up, offWait := true }
    let ri (n : Nat) (g : List (Fin 9)) : Course := { Course.reset with rail := .rising, step := n, good := g }
    let w := (s fun c => { c with onWait := true }).regSet (Reg.DSP_CO_CFG + 8 * 7) 0x7810
    let w := ((w.regSet Reg.RL_VIN 280).regSet (Reg.RL_CO_VGH + 16 * 7) 1).regSet (Reg.RL_CO_VGL + 16 * 7) 1
    let i := State.reset.regSet (Reg.RL_CO_CFG + 16 * 7) 1
    (7 < (s id).courses.length ∧ bitN (s id).side.railsOff.toNat 7 = false ∧ bitN (0x80 : Byte).toNat 7 = true ∧ (s id).boot.outcome ≠ .safeDrive ∧ ({ (s id).boot with outcome := .safeDrive } : Boot).outcome = .safeDrive ∧ ((s id).course 7).rail = .off ∧ (s id).disp.regions = [] ∧ wmapWf regReset (s id).regs.val = true) ∧
    ((w.course 7).onWait = true ∧ (w.course 7).rail = .off ∧ (w.course 7).pathStop = false ∧ w.boot.outcome ≠ .safeDrive ∧ canPowerOn w 7 = true) ∧
    ((stepRails (ri 1 []).step).contains 1 = true ∧ (1 : Fin 9) ∉ (ri 1 []).good ∧ (stepRails 5).length ≠ 0 ∧ (∀ r ∈ stepRails 5, r < 9)) ∧
    (up.offWait = true ∧ spanRuns (s fun _ => up) 7 = false ∧ up.frameOpen = false ∧ up.planned = false ∧ (s id).power.vinStep = 0) ∧
    ((s fun c => { c with rail := .fault, retryWait := true }).boot.outcome ≠ .safeDrive ∧ (s fun c => { c with rail := .fault, retryWait := true }).regF (Reg.RL_CO_FAULT + 16 * 7) 15 12 ≠ 6 ∧
      ([] : List Nat).length < (State.reset.regSet (Reg.RL_CO_CFG + 16 * 7) 0x1000).regF (Reg.RL_CO_CFG + 16 * 7) 14 12 ∧ (State.reset.regSet (Reg.RL_CO_CFG + 16 * 7) 0).regF (Reg.RL_CO_CFG + 16 * 7) 14 12 ≤ ([] : List Nat).length) ∧
    i.regF (Reg.RL_CO_CFG + 16 * 7) 11 0 ≠ 0 ∧ ((s id).course 7).waitAt = none ∧ creditsAwaited (s id) 7 = false ∧
    creditsAwaited (slated fun t => { t with frame := some { tx true [] with sentLn := [(0, 3)] } }) 0 = true := by
  refine ⟨?_, ?_, ?_, ?_, ?_, ?_, ?_, ?_, ?_⟩ <;> decide +kernel

/-- LoopsAndFrontLightsFollowChapter11: readings on either side of the two thresholds, a masked and a cracked loop, and a course that may be lit. -/
theorem witness_loops :
    let s := State.reset.regSet (Reg.SL_PCFG + 32 * 63) 0x8000
    let thr := s.reg Reg.RL_LOOPTHR
    let m := s.regSet Reg.RL_LOOPMASK (2 ^ 63) 4
    let lit := ((State.reset.regSet (Reg.RL_CO_LIGHT + 16 * 7) 0x8FFF).regSet (Reg.DSP_CO_CFG + 8 * 7) 0x7810).updCourse 7 fun c => { c with rail := .up, cleared := true }
    (wmapWf regReset s.regs.val = true ∧ s.loops.length = 64 ∧ s.disp.regions = [] ∧ (List.replicate 64 0).length = 64 ∧ (∀ q, q < 64 → q ≠ 63 → s.portEn q = false) ∧ s.portEn 63 = true) ∧
    (bitN (m.reg Reg.RL_LOOPMASK 4) 63 = true ∧ bitN (s.reg Reg.RL_LOOPMASK 4) 63 = false ∧ bitN ((s.regSet Reg.RL_LOOPCRACK (2 ^ 63) 4).reg Reg.RL_LOOPCRACK 4) 63 = true) ∧
    (64 * (thr % 256) < 2 * min 8191 (16382 / 2) ∧ 2 * min 8191 (0 / 2) ≤ 64 * (thr % 256) ∧ 2 * min 8191 (0 / 2) ≤ 16 * (thr / 256)) ∧
    (2 * min 8191 (64 * (thr % 256) / 2) ≤ 64 * (thr % 256) ∧ 16 * (thr / 256) < 2 * min 8191 (64 * (thr % 256) / 2)) ∧
    (lightEn lit 7 = true ∧ lightAllowed lit 7 = true ∧ lightEn State.reset 7 = false ∧ lit.boot.hiZ = 0 ∧ ({ lit.boot with hiZ := 1 } : Boot).hiZ ≠ 0) := by
  refine ⟨?_, ?_, ?_, ?_, ?_⟩ <;> decide +kernel

/-! Witnesses: power, the always-on domain, the host interface -/

/-- A submission entry's 64 bytes, zero but for some. -/
def entry (l : List (Nat × Byte)) : List Byte := l.foldl (fun b e => b.set e.1 e.2) (List.replicate 64 0)

/-- PowerOrdersAndWakesFollowTable122: an unknown STATE, each order in effect, newly given and kept, and the ways out of IDLE, DOZE and SLEEP. -/
theorem witness_power :
    let t (v : Byte) := tk 0x60 (entry [(8, v)])
    let s (v : Byte) := onRing State.reset (t v)
    let o : Order := ⟨.doze, 0, .auto, 0, none⟩
    let pw (f : Power → Power) : State := { State.reset with power := f State.reset.power }
    let w := { pw (fun p => { p with cur := some o }) with cores := State.reset.cores.map fun k => { k with running := true, waiting := true } }
    let z := pw fun p => { p with st := .sleep }
    let v := z.regSet Reg.RL_VIN 511
    (wmapWf regReset State.reset.regs.val = true ∧ (s 3).startable 15 5 0x60 = some (t 3) ∧ stateOfCode ((t 3).field 8 1) = none) ∧
    ((s 4).startable 15 5 0x60 = some (t 4) ∧ stateOfCode ((t 4).field 8 1) = some .run ∧ (t 4).field 12 4 = 0 ∧ overridden (s 4) = false ∧ (s 4).power.cur = none ∧ (s 4).power.kept = none ∧ (s 4).power.ordTick.toNat ≤ (t 4).tick.toNat ∧ earlierSide (s 4) (t 4).tick [0x13] = false ∧ earlierSide { s 4 with side := { (s 4).side with msgs := [⟨0x21, 0x13, 0, [1], 0, 0⟩] } } 1 [0x13] = true ∧ overridden { s 4 with power := { (s 4).power with tripped := true } } = true ∧
      (sideStates (s 4) (t 4).tick).any (fun v => decide (v < (t 4).field 8 1)) = false ∧ (sideStates { s 4 with side := { (s 4).side with orders := [((t 4).tick, false, 0, 2)] } } (t 4).tick).any (fun v => decide (v < (t 4).field 8 1)) = true ∧ inTransition (s 4) = false ∧ inTransition { s 4 with power := { (s 4).power with inTrans := true } } = true ∧ inEffect (s 4) .run = true) ∧
    (stateOfCode ((t 2).field 8 1) = some .doze ∧ inEffect (s 2) .doze = false) ∧ (stateOfCode ((t 1).field 8 1) = some .sleep ∧ inEffect (s 1) .sleep = false ∧ (s 1).disp.requests = []) ∧
    ({ (s 1).power with inTrans := true } : Power).inTrans = true ∧
    (State.reset.power.st = .run ∧ dspIdle State.reset = true ∧ veIdle State.reset = true ∧ State.reset.hif.dma = []) ∧
    ((State.reset.regSet Reg.PM_AUTO 1).regF Reg.PM_AUTO 9 0 ≠ 0 ∧ (pw fun p => { p with st := .idle }).power.st = .idle ∧ overridden State.reset = false ∧ inTransition State.reset = false ∧ State.reset.power.cur = none) ∧
    (w.power.cur = some o ∧ o.target = .doze ∧ w.power.inTrans = false ∧ dspIdle w = true ∧ rolesWait w = true) ∧
    ((pw fun p => { p with st := .doze }).power.st = .doze ∧ wakeEnabled State.reset 1 = true) ∧
    ((journalImage State.reset).all (·.kind == .lost) = true ∧ slotTaken { State.reset with boot := { State.reset.boot with outcome := .ready } } = true ∧ State.reset.ports.all (·.lifeW.isNone) = true ∧ (State.reset.regSet Reg.MEM_SS_CFG 0x3B00).ssWords ≠ 0) ∧
    (z.power.st = .sleep ∧ (1 : Fin 8) ≠ 0 ∧ (1 : Fin 8) ≠ 7 ∧ z.boot.inReset = false ∧ z.power.coolWait = false ∧ z.power.wakePend = [] ∧ vinWakes z = false ∧ vinWakes v = true) ∧
    (({ z.power with wakePend := [6] } : Power).wakePend = [6] ∧ vinThr z + 10 ≤ (511 : BitVec 9).toNat) := by
  refine ⟨?_, ?_, ?_, ?_, ?_, ?_, ?_, ?_, ?_, ?_, ?_, ?_⟩ <;> decide +kernel

/-- AlwaysOnCommandsFollowChapter12: a timer that runs and one that does not, the last second of a minute, an hour and a day, calendars valid and not, a key whose two scans agree and differ, all inputs sampled. -/
theorem witness_always_on :
    let s := State.reset
    let cal (a b : Nat) := [a, b, 0x2402, 4].zipIdx.foldl (fun s e => s.regSet (Reg.AON_CAL + e.2) e.1) s
    (wmapWf regReset s.regs.val = true ∧ s.boot.vstby = true ∧ (s.regSet (Reg.AON_WT + 2) 1 2).reg (Reg.AON_WT + 2 * 1) 2 ≠ 0 ∧ s.reg (Reg.AON_WT + 2 * 1) 2 = 0) ∧
    (calWords (cal 0x5959 0x2823) = (⟨59, 59, 23, 28, 2, 24, 4⟩ : Cal).words ∧ calOf 0x5959 0x2823 0x2402 4 = some ⟨59, 59, 23, 28, 2, 24, 4⟩ ∧ 28 < monthDays 24 2) ∧
    (calOf 0x5958 0x2923 0x2402 4 = some ⟨58, 59, 23, 29, 2, 24, 4⟩ ∧ calWords (cal 0x5958 0x2923) = (⟨58, 59, 23, 29, 2, 24, 4⟩ : Cal).words) ∧
    (calOf 0x5859 0x2922 0x2402 7 = some ⟨59, 58, 22, 29, 2, 24, 7⟩ ∧ calOf 0x5959 0x2922 0x2402 7 = some ⟨59, 59, 22, 29, 2, 24, 7⟩) ∧ calOf 0x5960 0x2823 0x2402 4 = none ∧
    (calOf 0x5959 0x3123 0x9912 7 = some ⟨59, 59, 23, 31, 12, 99, 7⟩ ∧ monthDays 99 12 = 31 ∧ calOf 0x5959 0x2923 0x2402 4 = some ⟨59, 59, 23, 29, 2, 24, 4⟩ ∧ monthDays 24 2 = 29) ∧
    (let al := (((s.regSet Reg.AON_ALARM 0xFFFF).regSet (Reg.AON_ALARM + 1) 0xFF23).regSet (Reg.AON_ALARM + 2) 0xFFFF).regSet (Reg.AON_ALARM + 3) 0x8000
     alarmMatches al [0x5959, 0x2823, 0x2402, 4] = true ∧ alarmMatches al [0x5959, 0x2822, 0x2402, 4] = false) ∧
    (let in3 := (s.regSet Reg.AON_AINCFG 8).regSet (Reg.AON_AINLO + 2 * 3) 1
     bitsN (in3.reg Reg.AON_AINCFG) 3 0 = 2 ^ 3 ∧ s.aon.ainBad.length = 4 ∧ s.aon.ainRaised.length = 4 ∧ (0 : BitVec 10).toNat < in3.regF (Reg.AON_AINLO + 2 * 3) 9 0 ∧
       ¬ (in3.regF (Reg.AON_AINHI + 2 * 3) 9 0 < (1 : BitVec 10).toNat) ∧ ([0, 0, 0, 1] : List Nat).getD 3 0 = 1) ∧
    s.aon.xtalF = false ∧ ((s.regSet Reg.AON_KEYCFG 0x10).regF Reg.AON_KEYCFG 7 4 ≠ 0 ∧ (∀ j : Fin 64, j ≠ 63 → (0x8000000000000000 : BitVec 64).getLsbD j.val = bitN (s.reg Reg.AON_KEYS 4) j.val) ∧
      (0x8000000000000000 : BitVec 64).getLsbD 63 ≠ bitN (s.reg Reg.AON_KEYS 4) 63 ∧ (0x8000000000000000 : BitVec 64).getLsbD 63 ≠ s.aon.prevScan.getLsbD 63 ∧
      (0x8000000000000000 : BitVec 64).getLsbD 63 = (0x8000000000000000 : BitVec 64).getLsbD 63 ∧ s.aon.fifo.length < 16) ∧ bitsN ((s.regSet Reg.AON_AINCFG 0xF).reg Reg.AON_AINCFG) 3 0 = 0xF := by
  refine ⟨?_, ?_, ?_, ?_, ?_, ?_, ?_, ?_, ?_, ?_, ?_⟩ <;> decide +kernel

/-- ThermalAndStandbyPowerFollowChapter12: temperatures at each limit and one below it, the steps of a stop, and both ends of VSTBY. -/
theorem witness_thermal :
    let s := State.reset
    let top (n : Word) : Word := (List.replicate 24 n ++ [0, 0]).foldl (fun a w => if a.slt w then w else a) 0
    (wmapWf regReset s.regs.val = true ∧ (List.replicate 24 (0 : Word)).length = 24 ∧ s.boot.mainOn = true ∧ s.power.vinf = false ∧ s.power.vinStep = 0 ∧ s.power.hard = false ∧ s.power.tripped = false) ∧
    (95 * 16 ≤ (top 1520).toInt ∧ (top 1471).toInt < 92 * 16 ∧ (top 1727).toInt < 108 * 16 ∧ 108 * 16 ≤ (top 1728).toInt ∧ (top 1839).toInt < 115 * 16 ∧ 115 * 16 ≤ (top 1840).toInt) ∧
    s.power.throttle = false ∧ ({ s.power with throttle := true } : Power).throttle = true ∧
    ((s.regSet Reg.PM_TMAX (16 * s.regF Reg.PM_THERM 15 8)).reg Reg.PM_TMAX = 16 * (s.regSet Reg.PM_TMAX (16 * s.regF Reg.PM_THERM 15 8)).regF Reg.PM_THERM 15 8 ∧ 16 * s.regF Reg.PM_THERM 15 8 < 32768) ∧
    ({ s.power with stopping := true } : Power).stopping = true ∧ (({ s.power with coolWait := true } : Power).coolWait = true ∧ s.boot.inReset = false ∧ s.power.hotTries < tripTries s) ∧
    (({ s.power with st := .idle } : Power).st = .idle ∧ s.ve.builds.all (·.isNone) = true ∧ s.ve.buildQ = [] ∧ s.memc.ssq = []) ∧ ({ s.core 17 with waiting := true } : Core).waiting = true ∧
    wmapWf (fun _ => 0) s.mem = true ∧ (({ s.boot with vstby := false } : Boot).vstby = false ∧ s.boot.starts = 0) := by
  refine ⟨?_, ?_, ?_, ?_, ?_, ?_, ?_, ?_, ?_, ?_, ?_⟩ <;> decide +kernel

/-- Ring 15 with 2 entries a queue, enabled, its SQ tail one ahead. -/
def ringed (f : Ring → Ring) : State :=
  ({ State.reset with boot := { State.reset.boot with outcome := .ready } } : State).updRing 15 fun r => f { r with en := true, sqSize := 2, cqSize := 2, sqTail := 1, cqTail := 1, unrel := 1, cqHead := 0 }

/-- DoorbellsAndEnablesFollowR370: indices at the last place and one past it, a head that frees all and one that frees too many, the least and the greatest ring, and sizes and bases out of range. -/
theorem witness_doorbells :
    let h := hostAccess (ringed id)
    let g := h.ring 15
    let k (n : Nat) : Nat := n + 32 * 15
    let e := ((hostAccess State.reset).regSet (k Reg.HIF_SQ_SIZE) 2).regSet (k Reg.HIF_CQ_SIZE) 4096
    (h.boot.mainOn = true ∧ 15 < h.hif.rings.length ∧ g.en = true ∧ g.err = false ∧ (1 : BitVec 12).toNat < g.sqSize ∧ g.sqSize ≤ (2 : BitVec 12).toNat) ∧
    ((1 : BitVec 12).toNat < g.cqSize ∧ ((1 : BitVec 12).toNat + g.cqSize - g.cqHead) % g.cqSize ≤ g.unrel ∧ g.cqSize ≤ (2 : BitVec 12).toNat ∧
      ((hostAccess (ringed fun r => { r with unrel := 0 })).ring 15).unrel < ((1 : BitVec 12).toNat + g.cqSize - g.cqHead) % g.cqSize) ∧
    ((hostAccess (ringed fun r => { r with err := true })).ring 15).err = true ∧ (hostAccess { ringed id with power := { (ringed id).power with st := .idle } }).power.st = .idle ∧
    (((hostAccess (onRing State.reset (tk 1 []))).ring 15).out ≠ 0 ∧ (e.ring 15).out = 0) ∧
    (e.reg (k Reg.HIF_SQ_BASE) 4 % 64 = 0 ∧ e.reg (k Reg.HIF_CQ_BASE) 4 % 64 = 0 ∧ 2 ≤ e.regF (k Reg.HIF_SQ_SIZE) 12 0 ∧ e.regF (k Reg.HIF_SQ_SIZE) 12 0 ≤ 4096 ∧
      2 ≤ e.regF (k Reg.HIF_CQ_SIZE) 12 0 ∧ e.regF (k Reg.HIF_CQ_SIZE) 12 0 ≤ 4096) ∧
    ((e.regSet (k Reg.HIF_SQ_BASE) 63 4).reg (k Reg.HIF_SQ_BASE) 4 % 64 ≠ 0 ∧ (e.regSet (k Reg.HIF_SQ_SIZE) 1).regF (k Reg.HIF_SQ_SIZE) 12 0 < 2 ∧ 4096 < (e.regSet (k Reg.HIF_CQ_SIZE) 4097).regF (k Reg.HIF_CQ_SIZE) 12 0) ∧
    ((e.regSet (k Reg.HIF_CQ_IRQ) 0x8001).regF (k Reg.HIF_CQ_IRQ) 15 15 = 1 ∧ (e.regSet (k Reg.HIF_CQ_IRQ) 0x8001).regF (k Reg.HIF_CQ_IRQ) 3 0 ≠ 0 ∧ ((ringed fun r => { r with unsig := 1 }).ring 15).unsig ≠ 0) := by
  refine ⟨?_, ?_, ?_, ?_, ?_, ?_, ?_, ?_⟩ <;> decide +kernel

/-- EntriesAreTakenAndPcieResetsLoseThem: an entry that passes, one of each refusal, and a NOP that completes at the queue's last place. -/
theorem witness_entries :
    let s := ringed fun r => { r with unrel := 0 }
    let g := s.ring 15
    let t0 := tk 0x01 (entry [])
    let n := s.updRing 15 fun r => { r with taken := [t0], acc := 1 }
    (15 < s.hif.rings.length ∧ canTake s 15 = true ∧ (entry [(0, 1)]).length = 64 ∧ takeCheck s 15 (entry [(0, 1)]) = none) ∧
    (takeCheck s 15 (entry [(0, 3)]) = some (.badCommand, 0x02) ∧ takeCheck s 15 (entry [(0, 1), (63, 1)]) = some (.badCommand, 0x01) ∧ takeCheck s 15 (entry [(0, 0x10)]) = some (.badCommand, 0x04) ∧
      takeCheck s 15 (entry [(0, 0x50)]) = some (.permission, 0) ∧ ∀ x ∈ g.taken, x.seq < g.nextSeq) ∧
    (n.startable 15 t0.cid 0x01 = some t0 ∧ (n.ring 15).taken.find? (fun x => x.seq == t0.seq) = some t0 ∧ t0.lostC = false ∧ (n.ring 15).auditOk = true ∧ n.regF (Reg.HIF_CQ_IRQ + 32 * 15) 15 15 = 0) ∧
    (onRing State.reset (tk 0x02 (entry []))).startable 15 5 0x02 = some (tk 0x02 (entry [])) ∧ (State.reset.boot.mainOn = true ∧ wmapWf regReset State.reset.regs.val = true ∧ (4 : BitVec 3).toNat ≤ 4 ∧ 4 < (5 : BitVec 3).toNat ∧ (3 : BitVec 4) ≠ 4) := by
  refine ⟨?_, ?_, ?_, ?_, ?_⟩ <;> decide +kernel

/-- LoadsAndStoresMoveTheirRows: a body out of range, a LOAD and a STORE at the last words of HBM and past them, and chunks of each, the last one and one that cannot be read among them. -/
theorem witness_transfers :
    let ok (op : Byte) := tk op (entry [(16, 2), (20, 1), (32, 0xFF), (33, 0xFF), (34, 0xFF), (35, 0xEF), (36, 3)])
    let out (op : Byte) := tk op (entry [(16, 2), (20, 1), (36, 4)])
    let d (dev : Bool) (l : List (Nat × Nat × Nat)) : Dma := ⟨(15, 9), dev, 1, (64, 0, 2) :: l, 0⟩
    let s (x : Dma) := { State.reset with hif := { State.reset.hif with dma := [x] } }
    (∀ op ∈ [(0x10 : Byte), 0x11], (onRing State.reset (ok op)).startable 15 5 op.toNat = some (ok op) ∧ xferBodyOk (ok op) = true ∧ xferBodyOk (tk op (entry [])) = false ∧ xferBodyOk (out op) = true) ∧
    (xferRangeOk State.reset (ok 0x10) true = true ∧ xferRangeOk State.reset (out 0x10) true = false ∧ xferRangeOk State.reset (ok 0x11) false = true ∧ xferRangeOk State.reset (out 0x11) false = false) ∧
    (dozing (s (d true [])) = false ∧ dozing { s (d true []) with power := { State.reset.power with st := .doze } } = true ∧ (s (d true [])).hif.movers.length = 8 ∧ (∀ x ∈ (s (d true [])).hif.movers, x ≠ some (15, 9)) ∧ (s (d true [])).hif.movers.getD 7 none = none ∧ (d true []).chunks = (64, 0, 2) :: [] ∧ 2 ≤ ([1, 2] : List Byte).length ∧ mainRange (s (d true [])) 0 1 = true ∧ wmapWf (fun _ => 0) (s (d true [])).mem = true) ∧
    (storeServes (s (d false [(66, 1, 2)])) 0 1 = true ∧ poisonIn (s (d false [(66, 1, 2)])) 0 1 = none ∧ ([(66, 1, 2)] : List (Nat × Nat × Nat)) ≠ []) ∧ (storeServes (s (d false [])) 0 1 = true ∧ poisonIn (s (d false [])) 0 1 = none ∧ poisonIn (poisonAt (s (d false [])) 0) 0 1 = some 0 ∧ storeServes (poisonAt (s (d false [])) 0) 0 1 = true) ∧ State.reset.hif.dma = [] := by
  refine ⟨?_, ?_, ?_, ?_, ?_, ?_⟩ <;> decide +kernel

/-- RenderVectorQueryAndLifeFollowChapter13. -/
theorem witness_host_commands :
    let r := tk 0x20 (entry [(16, 8), (18, 8), (20, 8), (24, 8), (28, 8), (30, 8)])
    let s := onRing (slated id) r
    let v (n : Byte) := tk 0x50 (entry [(8, 0x10), (16, n)])
    let u (n : Byte) := onRing (slated id) (v n)
    let w := tk 0x50 (entry [(8, 0x10), (16, 2)])
    let w := { w with started := true, pushLeft := 1 }
    let q (i : Byte) := tk 0x70 (entry [(16, 16), (20, i)])
    let l := tk 0x71 (entry [(16, 255)])
    (s.startable 15 5 0x20 = some r ∧ (renderArgs r).fieldsOk = true ∧ admitCheck s (renderArgs r).rect none = none ∧
      ((renderArgs r).ranges s).all (fun e => renderRangeOk s e && (poisonIn s e.1 e.2).isNone) = true ∧ (renderArgs (tk 0x20 (entry []))).fieldsOk = false) ∧
    ((u 1).startable 15 5 0x50 = some (v 1) ∧ ((u 1).ring 15).taken.Pairwise (fun a b => a.seq ≠ b.seq) ∧ (v 1).field 16 2 = 1 ∧ (v 1).field 8 8 % 16 = 0 ∧ (u 1).power.st = .run ∧
      (v 1).queue < (u 1).ve.queues.length ∧
      pushOutcome (((u 1).regSet Reg.VE_QBIND0 0xA8000001 2)) (v 1).queue 2 ((v 1).field 8 8) = .accepted) ∧
    ((v 0).field 16 2 = 0 ∧ (tk 0x50 (entry [(16, 1), (17, 1)])).field 16 2 = 257) ∧
    (((onRing (slated id) w).ring 15).taken.find? (fun t => t.cid == 5 && t.op == 0x50 && t.started && t.pushLeft != 0) = some w ∧ w.pushLeft = 1) ∧
    ((onRing State.reset (q 5)).startable 15 5 0x70 = some (q 5) ∧ transferWaits (onRing State.reset (q 5)) = false ∧ transferWaits { onRing State.reset (q 5) with hif := { (onRing State.reset (q 5)).hif with movers := List.replicate 8 (some (0, 1)) } } = true ∧ (∃ x, queryItem State.reset ((q 2).field 20 1) ((q 2).field 24 4) = some x) ∧ (queryItem State.reset ((q 6).field 20 1) 0).isNone = true) ∧
    (((onRing (slated id) l).ring 15).taken.find? (fun t => t.cid == 5 && t.op == 0x71 && t.started) = none ∧ (onRing (slated id) l).startable 15 5 0x71 = some l ∧ l.field 21 1 = 0 ∧
      ((onRing (slated id) l).port (l.field 20 1)).slate = some slate0 ∧ slateThere (onRing (slated id) l) (l.field 20 1) = true ∧ transferWaits (onRing (slated id) l) = false) := by
  refine ⟨?_, ?_, ?_, ?_, ⟨?_, ?_, ?_, ⟨_, rfl⟩, ?_⟩, ?_⟩ <;> decide +kernel

/-- RenderVectorQueryAndLifeFollowChapter13: a waymark record that can be read, and one that cannot, wherever the log stands. -/
theorem witness_unreadable :
    unreadable State.reset ((queryPlaces State.reset 5 23).take 1) 16 = none ∧
    unreadable { State.reset with poison := [wmLogAt 23] } ((queryPlaces State.reset 5 23).take 1) 16 = some 0 := by
  have hx := Nat.mod_lt Config.waymarkLog (show 0x7F41 > 0 by decide)
  have q : ((queryPlaces State.reset 5 23).take 1) = [some (wmLogAt 23)] := rfl
  have k (s : State) (i : Nat) (hi : i < 8) : storeKey s (wmLogAt 23 + i) = some (wmLogAt 23 + i) := by
    have : spaceOf s (wmLogAt 23 + i) = .sram (wmLogAt 23 + i - 0x900FF0000) := by
      unfold spaceOf wmLogAt
      split_ifs <;> first | rfl | omega
    simp [storeKey, this]
  have e (i : Nat) (hi : i < 8) : eccUnit (wmLogAt 23 + i) = wmLogAt 23 + i := by
    unfold eccUnit wmLogAt
    split_ifs <;> first | rfl | omega
  have u (s : State) : unreadable s [some (wmLogAt 23)] 16 = (poisonIn s (wmLogAt 23) 8).map fun k => 0 * 16 + 2 * (k - wmLogAt 23) := by
    simp only [unreadable, List.zipIdx, List.findSome?_cons, List.findSome?_nil, Option.bind_some]
    rw [show 16 / 2 = 8 from rfl]
    cases poisonIn s (wmLogAt 23) 8 <;> rfl
  have none' (s : State) (h : s.poison = []) : poisonIn s (wmLogAt 23) 8 = none := by
    simp only [poisonIn, List.find?_eq_none, List.mem_map, List.mem_range, forall_exists_index, and_imp, forall_apply_eq_imp_iff₂]
    intro i hi
    simp [poisonedAt, k s i hi, poisoned, h]
  have some' (s : State) (h : s.poison = [wmLogAt 23]) : poisonIn s (wmLogAt 23) 8 = some (wmLogAt 23) := by
    have : poisonedAt s (wmLogAt 23) = true := by simp [poisonedAt, k s 0 (by omega), poisoned, h, e 0 (by omega), show storeKey s (wmLogAt 23) = _ from k s 0 (by omega), show eccUnit (wmLogAt 23) = _ from e 0 (by omega)]
    simp [poisonIn, List.range, List.range.loop, this]
  rw [q, u, u, none' _ rfl, some' _ rfl]
  simp

/-- ModesOverlaysAndPlansTakeEffect: modes 4 and 13, with a slate and with none, a refused payload, an overlay of its size, a plan without a header, a swap with and without a staged plan. -/
theorem witness_modes :
    let t (p n : Byte) := tk 0x40 (entry [(20, p), (24, n)])
    let s (x : Taken) := onRing (slated id) x
    let o := tk 0x41 (entry [(16, 32)])
    let p := tk 0x80 (entry [])
    let w := tk 0x81 (entry [])
    let st := { (s w) with boot := { (s w).boot with staged := some roof } }
    ((s (t 4 2)).startable 15 5 0x40 = some (t 4 2) ∧ transferWaits (s (t 4 2)) = false ∧ 4 ≤ (t 4 2).field 20 1 ∧ (t 13 1).field 20 1 ≤ 13 ∧ (portsNamed (t 4 2)).all (slateThere (s (t 4 2))) = false ∧
      (portsNamed (t 13 1)).all (slateThere (s (t 13 1))) = true) ∧
    ((modeRefused (leaveIdle (s (t 13 1))) 13 [] (portsNamed (t 13 1))).isSome = true ∧ modeRefused (leaveIdle (s (t 13 0))) 13 [] (portsNamed (t 13 0)) = none) ∧
    ((s o).startable 15 5 0x41 = some o ∧ bitN (o.field 21 1) 0 = false ∧ slateThere State.reset (o.field 20 1) = false ∧ slateThere (s o) (o.field 20 1) = true ∧
      ((s o).port (o.field 20 1)).slate = some slate0 ∧ o.field 16 4 = slate0.width * slate0.height / 2 ∧ o.field 20 1 < (s o).boot.layers.length) ∧
    (transferWaits (s o) = false ∧ (s p).startable 15 5 0x80 = some p ∧ transferWaits (s p) = false ∧ (s p).boot.swapWait = none ∧ p.field 16 4 ≤ 0x100000) ∧
    ((s w).startable 15 5 0x81 = some w ∧ (s w).boot.staged = none ∧ swapCheck (s w) false ≠ 0 ∧ bitN (w.field 8 1) 0 = false ∧ swapCheck st false = 0 ∧ st.boot.outcome ≠ .safePlan) ∧
    (({ st.boot with swapWait := some (false, (15, 9)) } : Boot).swapWait = some (false, (15, 9)) ∧ st.boot.staged = some roof ∧ dozing st = false ∧
      ssWaits { st with memc := { st.memc with ssq := [(0, 5, 2, [(0, 0)])] } } 5 2 = true ∧ st.memc.ssLost = false ∧ ({ st.memc with ssLost := true } : MemCtl).ssLost = true) := by
  refine ⟨?_, ?_, ?_, ?_, ?_, ?_⟩ <;> decide +kernel

/-! Witnesses: the side lane, starts, waymarks, security and reliability -/

/-- A device with a side lane as `f` leaves it. -/
def sided (f : Side → Side) : State := { State.reset with side := f State.reset.side }

/-- SideLanePacketsFollowR390: packets with each check failing, a message's first packet, its next one to the 256th byte, and one out of sequence. -/
theorem witness_packets :
    let x : Reasm := ⟨0x21, 7, 3, List.replicate 192 0⟩
    let s := sided fun d => { d with reasm := [x] }
    State.reset.boot.vstby = true ∧ (true && true && false) = false ∧ (false && true && true) = false ∧ (true && false && true) = false ∧
    (assembly State.reset 0x21 7 = none ∧ (List.replicate 64 (0 : Byte)).length ≤ 64 ∧ 64 < (List.replicate 65 (0 : Byte)).length ∧ 256 < ({ x with bytes := List.replicate 193 0 }.bytes ++ List.replicate 64 (0 : Byte)).length) ∧ (assembly s 0x21 7 = some x ∧ x.next = 3 ∧ (x.bytes ++ List.replicate 64 0).length ≤ 256 ∧ x.next ≠ 0) := by
  refine ⟨?_, ?_, ?_, ?_, ?_, ?_⟩ <;> decide +kernel

/-- EndpointRequestsAndKwavisMessagesAreChecked: both operations, the reserved IDs, and a message that fails each check of R393 and one that passes all. -/
theorem witness_messages :
    let msg (c : Byte) (b : List Byte) : List Byte := [0x7E, 0x1F, 0xA7, 1, c, 0, 0] ++ b
    let busy := sided fun d => { d with msgs := [⟨0x21, 1, 0, [], 0, 7⟩] }
    ((1 : BitVec 2).toNat ≤ 1 ∧ (1 : Byte) ≠ 0 ∧ (0xFE : Byte) ≠ 0xFF ∧ 1 < (2 : BitVec 2).toNat) ∧
    (assembly State.reset 0x21 7 = none ∧ (msg 1 []).length ≤ 64 ∧ (msg 1 []).take 3 = [0x7E, 0x1F, 0xA7]) ∧
    (7 ≤ (msg 1 []).length ∧ byteAt (msg 1 []) 3 = 1 ∧ byteAt (msg 1 []) 5 = 0 ∧ (BitVec.ofNat 8 (byteAt (msg 1 []) 4)).toNat ∈ kwavisCodes) ∧ (¬ 7 ≤ ((msg 1 []).take 6).length ∧ 5 ∉ kwavisCodes) ∧
    (kwavisLenOk 1 ((msg 1 [0]).drop 7).length = false ∧ kwavisLenOk 1 ((msg 1 []).drop 7).length = true ∧ busy.side.msgs.any (·.src == 0x21) = true ∧ State.reset.side.msgs.any (·.src == 0x21) = false) ∧
    (kwavisLenOk 2 5 = true ∧ kwavisFieldsOk 2 [0, 0, 0, 0, 8] = false ∧ kwavisFieldsOk 2 [0, 0, 0, 0, 7] = true ∧ kwavisOrder ⟨0x21, 0x10, 0, [4, 0, 0, 0, 0], 0, 7⟩ = some (0, 4)) := by
  refine ⟨?_, ?_, ?_, ?_, ?_, ?_⟩ <;> decide +kernel

/-- KwavisMessagesAreAnsweredByTable144: each message waiting, in the states that its clauses name. -/
theorem witness_kwavis :
    let m (c : Byte) (b : List Byte) : KMsg := ⟨0x21, c, 0, b, 0, 7⟩
    let s (x : KMsg) := { sided fun d => { d with msgs := [x] } with boot := { State.reset.boot with outcome := .ready } }
    let h := { s (m 0x10 [4, 0, 0, 0, 0]) with side := { State.reset.side with orders := [(0, true, 0, 1)] } }
    (∀ x ∈ [m 1 [], m 2 [0, 0, 0, 0, 7], m 3 [22, 14], m 4 [63, 0, 0], m 0x10 [4, 0, 0, 0, 0], m 0x11 [1], m 0x12 [0xFF, 1], m 0x13 [1], m 0x20 [0, 0, 0, 0, 1, 2], m 0x21 [0, 0, 0, 0], m 0x30 [1], m 0x31 []],
      (s x).kmsg 0x21 x.code = some x ∧ (s x).power.st = .run ∧ (s x).boot.outcome = .ready ∧ (s x).boot.mainOn = true) ∧
    (let z := { s (m 4 [63, 0, 0]) with power := { State.reset.power with st := .sleep } }
     z.power.st = .sleep ∧ z.boot.outcome ≠ .safeAon ∧ z.boot.outcome ≠ .safeFw ∧ ({ z.boot with mainOn := false } : Boot).mainOn = false) ∧
    (let z := s (m 0x10 [4, 0, 0, 0, 0])
     hostOrderAt z 0 [0] 4 = false ∧ (earlierSide z 0 [0x13] = false ∧ earlierSide (s (m 0x13 [1])) 1 [0x10, 0x13] = true ∧ earlierSide (s (m 0x11 [1])) 0 [0x11] = false) ∧ overridden z = false ∧ z.power.ordTick.toNat ≤ 0 ∧ z.power.vinStep = 0 ∧ transferWaits (wakeEvent z 1) = false ∧ (powerSetOrder (m 0x10 [1, 0, 0, 0, 0])).target = .sleep ∧ z.power.inTrans = false ∧ z.boot.inReset = false ∧ z.power.cur = none ∧ z.power.kept = none ∧ inEffect z (powerSetOrder (m 0x10 [4, 0, 0, 0, 0])).target = true) ∧
    (hostOrderAt h 0 [0] 4 = true ∧ hostOrderAt h 0 [0, 1] 256 = true ∧ hostOrderAt (s (m 0x13 [1])) 0 [0, 1] 256 = false) ∧
    (let z := s (m 0x13 [1])
     z.power.vinf = false ∧ z.power.stopping = false ∧ z.power.tripped = false ∧ z.power.vinStep = 0 ∧ z.power.inTrans = false ∧ z.boot.mainOn = true ∧ z.boot.inReset = false ∧ z.side.keptReset = none ∧ z.side.curReset ≠ some (m 0x13 [1]) ∧ overridden z = false ∧
       inTransition { z with power := { z.power with inTrans := true } } = true) ∧ bitN (byteAt [1] 0) 0 = true := by
  refine ⟨?_, ?_, ?_, ?_, ?_, ?_⟩ <;> decide +kernel

/-- StartsFollowTable151. -/
theorem witness_starts :
    let s := mach [] id
    let u := mach [] fun k => { k with st := 0x40 }
    let b (f : Boot → Boot) : Boot := f State.reset.boot
    (s.boot.mainOn = true ∧ s.boot.inReset = false ∧ s.power.vinStep = 0 ∧ s.power.vinf = false ∧ 3 ≤ (b fun x => { x with safeTry := 3 }).safeTry ∧ s.boot.resetN = true ∧ s.boot.vstby = true) ∧
    (coreRuns s 0 = true ∧ (s.core 0).ring = 0 ∧ coreRuns u 0 = true ∧ (u.core 0).ring ≠ 0) ∧
    ((b fun x => { x with inReset := true, cause := 15 }).inReset = true ∧ (b id).recs.length = 23 ∧ wmapWf regReset s.regs.val = true ∧ 15 < 16) ∧
    ((b fun x => { x with safeTry := 2 }).safeTry < 3 ∧ (b fun x => { x with outcome := .safeAon, mainOn := false }).outcome = .safeAon ∧ (b fun x => { x with outcome := .safeDrive }).outcome = .safeDrive) ∧
    ((b id).pwrEn = true ∧ (b id).mainPg = true ∧ (b fun x => { x with pwrEn := false }).pwrEn = false ∧ (b fun x => { x with mainOn := false }).mainOn = false) := by
  refine ⟨?_, ?_, ?_, ?_, ?_⟩ <;> decide +kernel

/-- A start at waymark n, running. -/
def atWm (n : Nat) (tries : Nat) (path : Nat) : State :=
  let b := State.reset.boot
  { State.reset with boot := { b with wm := n, recs := b.recs.set n { WmRec.reset with result := 5, path := path }, tries := b.tries.set n tries } }

/-- WaymarksPassRetryAndLeadToSafeStates: waymarks of each kind, at the last retry and past it, with a method left and without. -/
theorem witness_waymarks :
    (∀ n ∈ [1, 3, 14, 15, 16, 17, 21, 0], ((atWm n 0 0).wmRec n).result = 5 ∧ (atWm n 0 0).boot.recs.length = 23 ∧ (atWm n 0 0).boot.tries.length = 23 ∧ (atWm n 0 0).boot.outcome = .running ∧ (atWm n 0 0).power.vinStep = 0) ∧
    (wmKind 1 = .e ∧ (atWm 1 0 0).boot.tries.getD 1 1 ≤ wmRetries (atWm 1 0 0) 1 ∧ wmRetries (atWm 1 1 1) 1 < (atWm 1 1 1).boot.tries.getD 1 1 ∧ (wmMethods (atWm 1 1 1) 1).length ≤ ((atWm 1 1 1).wmRec 1).path + 1) ∧
    (wmKind 10 = .a ∧ (10 : Nat) ≠ 16 ∧ ((atWm 10 0 0).wmRec 10).path + 1 < (wmMethods (atWm 10 0 0) 10).length) ∧ (wmKind 21 = .k ∧ (17 : Nat) < 21 ∧ (21 : Nat) ≠ 22 ∧ ((atWm 17 0 0).wmRec 17).path = 0 ∧ ((atWm 3 0 0).wmRec 3).units = 0 ∧ (atWm 1 0 0).boot.cause = 1 ∧ heldOff (atWm 1 0 0) = false ∧ (atWm 1 0 0).power.kept = none ∧ (atWm 1 0 0).side.keptReset = none) ∧
    (let p : State := { atWm 14 0 0 with boot := { (atWm 14 0 0).boot with portWm := List.replicate 63 15 ++ [14] }, ports := List.replicate 64 { Port.reset with st := .active } }
     p.boot.portWm.length = 64 ∧ p.boot.portWm.getD 63 18 = 14 ∧ (p.port 63).st = .active) ∧
    (let plan : List Word := [0, 0, 0, 19, 0, 0, 0, 0] ++ ([7, 6, 0] ++ [0, 0, 0, 0, 0, 0x8000] ++ [0, 0])
     heldOff { atWm 1 0 0 with mem := (plan.zipIdx.map fun e => (ssAddr (0x80000 + e.2), e.1)).filter (·.2 != 0) } = true) ∧
    (let q : State := (((atWm 19 0 0).regSet (Reg.RL_CO_VGH + 16 * 7) 1).regSet (Reg.RL_CO_VGL + 16 * 7) 1).updCourse 0 fun c => { c with rail := .up }
     wmKind 19 = .k ∧ coursesSet (atWm 19 0 0) = [] ∧ coursesSet q ≠ [] ∧ (q.wmRec 19).result = 5) ∧
    (let p (k : Nat) : State := { atWm 16 0 0 with boot := { (atWm 16 0 0).boot with portWm := List.replicate 63 17 ++ [16], portPath := List.replicate 63 0 ++ [k] } }
     (p 0).boot.portWm.length = 64 ∧ (p 0).boot.portPath.length = 64 ∧ (p 0).boot.portWm.getD 63 18 = 16 ∧ (p 0).boot.portPath.getD 63 0 = 0 ∧ (p 1).boot.portPath.getD 63 0 ≠ 0 ∧ 63 < (p 1).ports.length) := by
  refine ⟨?_, ?_, ?_, ?_, ?_, ?_, ?_, ?_⟩ <;> decide +kernel

/-- CalibrationAndSecurityFollowChapter15: idle and not, and each operation of the engine. -/
theorem witness_security :
    sysIdle State.reset = true ∧ sysIdle { State.reset with disp := { State.reset.disp with requests := [req0] } } = false ∧ wmapWf regReset State.reset.regs.val = true ∧
    ∀ op : BitVec 4, op.toNat ≤ 4 → ({ State.reset.sec with busy := true, op := op } : Sec).busy = true ∧ ({ State.reset.sec with busy := true, op := op } : Sec).op = op := by
  refine ⟨?_, ?_, ?_, fun _ _ => ⟨rfl, rfl⟩⟩ <;> decide +kernel

/-- RolesEventsAndAuditsFollowChapter16: a role late, one that moves to the spare core, an error queue with one place and with none, an event alone and one like the last, a log entry to write, and a state store to lose. -/
theorem witness_ras :
    let s := State.reset
    let ws : List Word := [0x1001, 0x0401, 0, 0, 0, 0, 0, 0, 0, 0, 0x05FF, 0, 0, 0, 0, 0]
    let e : EvEntry := ⟨ws, 0⟩
    let q := { s.regSet Reg.MEM_SS_CFG 0x1000 with ras := { s.ras with evq := [e] }, time := 99999999 }
    (wmapWf regReset s.regs.val = true ∧ s.ras.moving ≠ some 15 ∧ ({ s.ras with moving := some 15 } : Ras).moving = some 15 ∧ s.ras.moveQ = [] ∧ s.power.st ≠ .doze ∧ s.boot.mainOn = true) ∧
    (s.ras.late.getD 15 false = false ∧ 15 < s.ras.late.length ∧ (coreOfRole s 15).isSome = true ∧ (15 : Fin 16) ≠ 0) ∧
    (s.ras.moving = none ∧ coreOfWindow s 16 = some 16 ∧ coreOfRole s 15 = some 15 ∧ s.cores.length = 18) ∧ (s.boot.inReset = false ∧ s.power.vinStep = 0 ∧ s.power.vinf = false) ∧
    ((4 : BitVec 3).toNat ≤ 4 ∧ (List.replicate 63 ws).length < 64 ∧ 64 ≤ (List.replicate 64 ws).length) ∧
    ((∀ x ∈ s.ras.evq, ¬ (wordAt x.words 0 = 0x1001 ∧ wordAt x.words 10 = 5 * 256 + 255 ∧ s.time.toNat < x.began.toNat + 100000000)) ∧ s.ras.evq.length < 256 ∧ 3 ≤ (3 : BitVec 3).toNat) ∧
    (q.ras.evq = e :: [] ∧ wordAt e.words 0 = 0x1001 ∧ wordAt e.words 10 = 5 * 256 + 255 ∧ q.time.toNat < e.began.toNat + 100000000) ∧
    (s.disp.regions = [] ∧ s.disp.requests = [] ∧ q.disp.regions = [] ∧ q.disp.requests = []) ∧
    (localFaultKey 10 16 0xFFFF = some 0x90010FFFF ∧ localFaultKey 0xFF 0 0x7FFF = some 0x900FF7FFF) ∧
    (dozing q = false ∧ wmPassed { q with boot := { q.boot with recs := List.replicate 23 { WmRec.reset with result := 2 } } } 18 = true ∧ q.memc.ssLost = false ∧ q.ssWords ≠ 0 ∧ ssServes q 4 (0x1000 + 16 * (dwordAt e.words 2 % 4096)) 16 = true ∧ e.words.length = 16 ∧ wmapWf (fun _ => 0) q.mem = true) ∧ (s.ras.evq = [] ∧ s.reg Reg.RAS_EVSEQ 2 < 4294967295 ∧ s.hif.rings.all Ring.auditOk = true) := by
  refine ⟨?_, ?_, ?_, ?_, ?_, ?_, ?_, ?_, ?_, ?_, ?_⟩ <;> decide +kernel

/-- SlatesAttachByTheirRecord: a header that passes every check and one that fails, both policies, and the last poll. -/
theorem witness_attach :
    let h := [(0, 0x52), (1, 0x53), (3, 1), (8, 7), (16, 8), (18, 8), (22, 0x20), (28, 0xC0), (29, 1), (32, 0x40), (37, 2), (40, 0x20), (252, 0x71), (253, 0x12), (254, 0x25), (255, 0x3A)]
    let d (l : List (Nat × Byte)) : SlateData := ⟨l.foldl (fun b e => b.set e.1 e.2) (List.replicate 256 0), List.replicate 192 0, [], [], [], [], 0⟩
    let s := slated fun t => { t with slate := none, drivable := false }
    let u := s.regSet Reg.SL_PCFG 0x8800
    let a (n : Nat) := slated fun t => { t with slate := none, pendingAt := some (d h), polls := n, authStage := 3 }
    let w : Trans := ⟨2, true, 0xFE0000, 32, [], 0, false, false, false⟩
    let g : Trans := ⟨2, false, 0xFE0040, 64, [], 0, false, false, false⟩
    let m (n : Nat) (x : Trans) := slated fun t => { t with slate := none, pendingAt := some (d h), authStage := n, trans := [x] }
    ((d h).header.length = 256 ∧ (d h).cert.length = 192 ∧ (s.port 0).st = .active ∧ (s.port 0).slate = none ∧ (s.port 0).pendingAt = none ∧ s.portEn 0 = true ∧ u.portEn 0 = true ∧ s.disp.regions = []) ∧
    headerCheck s 0 (d h) = 0 ∧ headerCheck s 0 (d []) ≠ 0 ∧ (s.regF (portReg Reg.SL_PCFG 0) 11 10 = 0 ∧ u.regF (portReg Reg.SL_PCFG 0) 11 10 ≠ 0) ∧
    (((a 98).port 0).pendingAt = some (d h) ∧ ((a 98).port 0).polls < 99 ∧ 99 ≤ ((a 99).port 0).polls ∧ ((a 98).port 0).authStage = 3 ∧ ((a 98).port 0).xfers = [] ∧ ((a 98).port 0).trans = [] ∧ ((a 98).port 0).frame = none ∧
      ((m 1 w).port 0).trans.find? (·.tag == 2) = some w ∧ ((m 4 g).port 0).trans.find? (·.tag == 2) = some g ∧ g.dead = false ∧ ((m 4 g).port 0).pendingAt = some (d h) ∧ ¬ (g.write = true ∧ 0xF00000 ≤ g.addr ∧ g.addr < 0xF80000)) := by
  refine ⟨?_, ?_, ?_, ?_, ?_⟩ <;> decide +kernel

end Sys2Proof.Tests
end

section
/-! SUPPORT. Values of one or two words on the operand stack, their flags (R6, R233), and the issue of an instruction that computes a result and flags. -/
namespace Sys2Proof.Machine
open Sys2Proof

/-! Numbers and bits -/

theorem bitN_eq_testBit (v i : Nat) : bitN v i = v.testBit i := by
  rw [bitN, Nat.testBit_eq_decide_div_mod_eq, Nat.shiftRight_eq_div_pow, beq_eq_decide]

theorem bitN_toNat {n : Nat} (a : BitVec n) (i : Nat) : bitN a.toNat i = a.getLsbD i := bitN_eq_testBit _ _

theorem toSigned_toNat {n : Nat} (hn : 0 < n) (a : BitVec n) : toSigned n a.toNat = a.toInt := by
  have hp : 2 ^ n = 2 * 2 ^ (n - 1) := (mul_pow_sub_one (by omega) 2).symm
  rw [toSigned, Nat.mod_eq_of_lt a.isLt, BitVec.toInt_eq_toNat_cond]
  split_ifs <;> omega

theorem ofSigned_eq_toNat (n : Nat) (i : Int) : ofSigned n i = (BitVec.ofInt n i).toNat := (BitVec.toNat_ofInt i).symm

theorem ofSigned_toSigned {n m : Nat} (hn : 0 < n) (a : BitVec n) : ofSigned m (toSigned n a.toNat) = (a.signExtend m).toNat := by
  rw [toSigned_toNat hn, ofSigned_eq_toNat, BitVec.signExtend]

theorem zn_toNat {n : Nat} (r : BitVec n) : zn n r.toNat = resultFlags r := by
  have hz : (r.toNat % 2 ^ n == 0) = (r == 0) := by
    rw [Nat.mod_eq_of_lt r.isLt, Bool.eq_iff_iff]
    simp [BitVec.toNat_eq]
  rw [zn, resultFlags, hz, bitN_toNat, BitVec.msb_eq_getLsbD_last]

/-! Values as words (R6) -/

theorem wordsOfNat_length (k v : Nat) : (wordsOfNat k v).length = k := by
  induction k generalizing v with
  | zero => rfl
  | succ k ih => simp [wordsOfNat, ih]

/-- The low words of a number do not see what stands above them. -/
theorem wordsOfNat_mod (k v : Nat) : wordsOfNat k (v % 2 ^ (16 * k)) = wordsOfNat k v := by
  induction k generalizing v with
  | zero => rfl
  | succ k ih =>
    have hsplit : 2 ^ (16 * (k + 1)) = 2 ^ 16 * 2 ^ (16 * k) := by ring
    have hlow : wd (v % 2 ^ (16 * (k + 1))) = wd v := BitVec.eq_of_toNat_eq (by simp [wd, hsplit])
    have hhigh : (v % 2 ^ (16 * (k + 1))) >>> 16 = (v >>> 16) % 2 ^ (16 * k) := by
      rw [hsplit, Nat.shiftRight_eq_div_pow, Nat.shiftRight_eq_div_pow, Nat.mod_mul_right_div_self]
    rw [wordsOfNat, wordsOfNat, hlow, hhigh, ih]

@[simp] theorem valueWords_length (w : Bool) (a : BitVec (wWidth w)) : (valueWords w a).length = wWords w := wordsOfNat_length _ _

theorem entries_eq_valueWords (w : Bool) (v : Nat) : entries (wWidth w) v = valueWords w (BitVec.ofNat _ v) := by
  have hwidth : wWidth w / 16 = wWords w ∧ wWidth w = 16 * wWords w := by cases w <;> decide
  rw [entries, valueWords, BitVec.toNat_ofNat, hwidth.1, hwidth.2, wordsOfNat_mod]

theorem entries_toNat {w : Bool} (a : BitVec (wWidth w)) : entries (wWidth w) a.toNat = valueWords w a := by
  rw [entries_eq_valueWords, BitVec.ofNat_toNat, BitVec.setWidth_eq]

theorem wWidth_pos (w : Bool) : 1 < wWidth w := by cases w <;> decide

/-! Operands -/

@[simp] theorem issuing_arg (k : Core) (n i : Nat) : k.issuing.arg n i = k.arg n i := rfl
@[simp] theorem issuing_arg32 (k : Core) (n i : Nat) : k.issuing.arg32 n i = k.arg32 n i := rfl
@[simp] theorem issuing_argW (k : Core) (w : Bool) (n i : Nat) : k.issuing.argW w n i = k.argW w n i := rfl
@[simp] theorem issuing_cf (k : Core) : k.issuing.cf = k.cf := rfl
@[simp] theorem issuing_d (k : Core) : k.issuing.d = k.d := rfl

/-- A value among the top entries, by what the stack holds below and above it. -/
theorem holds_argW {k : Core} {base pre post : List Word} {w : Bool} {a : BitVec (wWidth w)}
    (h : Holds k (base ++ (pre ++ (valueWords w a ++ post)))) :
    k.argW w (pre ++ (valueWords w a ++ post)).length pre.length = a.toNat := by
  have hlow := holds_arg h pre.length
  cases w with
  | false =>
    have ha : a.toNat < 65536 := a.isLt
    have hword : (pre ++ (valueWords false a ++ post)).getD pre.length 0 = wd a.toNat := by simp [valueWords, wordsOfNat, wWords]
    rw [Core.argW, if_neg Bool.false_ne_true, hlow (by simp [wWords]), hword, wd, BitVec.toNat_ofNat, Nat.mod_eq_of_lt ha]
  | true =>
    have hhigh := holds_arg h (pre.length + 1)
    have ha : a.toNat < 4294967296 := a.isLt
    have hword : (pre ++ (valueWords true a ++ post)).getD pre.length 0 = wd a.toNat := by simp [valueWords, wordsOfNat, wWords]
    have hnext : (pre ++ (valueWords true a ++ post)).getD (pre.length + 1) 0 = wd (a.toNat >>> 16) := by simp [valueWords, wordsOfNat, wWords]
    have hlen : pre.length + 1 < (pre ++ (valueWords true a ++ post)).length := by
      rw [List.length_append, List.length_append, valueWords_length, wWords, if_pos rfl]
      omega
    rw [Core.argW, if_pos rfl, Core.arg32, hlow (by omega), hhigh hlen, hword, hnext, wd, wd, BitVec.toNat_ofNat, BitVec.toNat_ofNat]
    omega

theorem holds_argW_top {k : Core} {base : List Word} {w : Bool} {a : BitVec (wWidth w)} (h : Holds k (base ++ valueWords w a)) :
    k.argW w (wWords w) 0 = a.toNat := by
  simpa using holds_argW (pre := []) (post := []) (base := base) (k := k) (a := a) (by simpa using h)

theorem holds_argW_pair {k : Core} {base : List Word} {w : Bool} {a b : BitVec (wWidth w)} (h : Holds k (base ++ (valueWords w a ++ valueWords w b))) :
    k.argW w (2 * wWords w) 0 = a.toNat ∧ k.argW w (2 * wWords w) (wWords w) = b.toNat := by
  have ha := holds_argW (pre := []) (post := valueWords w b) (base := base) (k := k) (a := a) h
  have hb := holds_argW (pre := valueWords w a) (post := []) (base := base) (k := k) (a := b) (by simpa using h)
  simp only [List.nil_append, List.append_nil, List.length_append, List.length_nil, valueWords_length, ← two_mul] at ha hb
  exact ⟨ha, hb⟩

theorem holds_arg_top {k : Core} {base : List Word} {a : Word} (h : Holds k (base ++ [a])) : k.arg 1 0 = a.toNat :=
  holds_arg h 0 Nat.one_pos

/-- What the stack holds fits in it. -/
theorem room_of_holds {k : Core} {l : List Word} {n : Nat} (h : Holds k l) (hn : n ≤ l.length) : Room k n := by
  have := congrArg List.length h.take
  rw [List.length_take] at this
  exact hn.trans (by omega)

/-! Issue -/

/-- What an instruction leaves that replaces its entries and sets the flags it names, both computed by `f` from the core. -/
theorem computes_of_flags {s : State} {o : CoreOp} {c : CoreId} {cond : Cond} {base ins out : List Word} {fl : FlagUpd} {f : Core → List Word × FlagUpd}
    (h : Fires s c cond o.len) (hh : Holds (s.core c.val) (base ++ ins)) (hn : ins.length = o.need) (hl : out.length = o.leave)
    (hroom : Room (s.core c.val) (base.length + o.leave))
    (ho : o.act = .core fun k => .ok ((k.replace o.need (f k).1).flags (f k).2)) (hf : f (s.core c.val).issuing = (out, fl)) :
    Computes s (issue o c cond s) c o.len o.count (base ++ out) fl :=
  computes_of_core h rfl hh hn hl hroom ⟨_, ho, by rw [hf]⟩

/-- As computes_of_flags, where the results take no more entries than the operands. -/
theorem computes_of_flags_in_place {s : State} {o : CoreOp} {c : CoreId} {cond : Cond} {base ins out : List Word} {fl : FlagUpd} {f : Core → List Word × FlagUpd}
    (h : Fires s c cond o.len) (hh : Holds (s.core c.val) (base ++ ins)) (hn : ins.length = o.need) (hl : out.length = o.leave)
    (hle : o.leave ≤ o.need)
    (ho : o.act = .core fun k => .ok ((k.replace o.need (f k).1).flags (f k).2)) (hf : f (s.core c.val).issuing = (out, fl)) :
    Computes s (issue o c cond s) c o.len o.count (base ++ out) fl :=
  computes_of_flags h hh hn hl (room_of_holds hh (by simp only [List.length_append]; omega)) ho hf

end Sys2Proof.Machine
end

section
/-! SUPPORT. One-operand and immediate arithmetic of Table 8.4 (R237, R238): the flag rules on bit vectors of any width, and each instruction by its rule. -/
namespace Sys2Proof.Machine
open Sys2Proof

/-! Sums and differences on bit vectors -/

section
variable {n : Nat} (a b cy : BitVec n)

theorem bne_eq_decide_ne (x y : Int) : (y != x) = decide (x ≠ y) := by
  rw [bne_comm, Bool.eq_iff_iff, bne_iff_ne, decide_eq_true_iff]

theorem ofInt_sub_sub : BitVec.ofInt n ((a.toNat : Int) - b.toNat - cy.toNat) = a - b - cy := by
  simp only [sub_eq_add_neg, BitVec.ofInt_add, BitVec.ofInt_neg, BitVec.ofInt_natCast, BitVec.ofNat_toNat, BitVec.setWidth_eq]

theorem addF_toNat (hn : 0 < n) : addF n a.toNat b.toNat cy.toNat = ((a + b + cy).toNat,
    { resultFlags (a + b + cy) with c := some (decide (2 ^ n ≤ a.toNat + b.toNat + cy.toNat)), v := some (a.toInt + b.toInt + cy.toNat != (a + b + cy).toInt) }) := by
  have hr : (a.toNat + b.toNat + cy.toNat) % 2 ^ n = (a + b + cy).toNat := by simp
  simp only [addF, hr, zn_toNat, toSigned_toNat hn]

theorem subF_toNat (hn : 0 < n) : subF n a.toNat b.toNat cy.toNat = ((a - b - cy).toNat,
    { resultFlags (a - b - cy) with c := some (decide (a.toNat < b.toNat + cy.toNat)), v := some (a.toInt - b.toInt - cy.toNat != (a - b - cy).toInt) }) := by
  simp only [subF, ofSigned_eq_toNat, ofInt_sub_sub, zn_toNat, toSigned_toNat hn]

theorem addF_toNat_zero (hn : 0 < n) : addF n a.toNat b.toNat 0 = ((a + b).toNat,
    { resultFlags (a + b) with c := some (decide (2 ^ n ≤ a.toNat + b.toNat)), v := some (a.toInt + b.toInt != (a + b).toInt) }) := by
  simpa using addF_toNat a b 0 hn

theorem subF_toNat_zero (hn : 0 < n) : subF n a.toNat b.toNat 0 = ((a - b).toNat,
    { resultFlags (a - b) with c := some (decide (a.toNat < b.toNat)), v := some (a.toInt - b.toInt != (a - b).toInt) }) := by
  simpa using subF_toNat a b 0 hn

theorem logicF_toNat : logicF n a.toNat = (a.toNat, { resultFlags a with v := some false }) := by
  rw [logicF, zn_toNat]

end

/-! The two-operand operations that ALUI names -/

section
variable {n : Nat} (a b : BitVec n) (c : Bool)

theorem toNat_ofNat_b2n (hn : 1 < n) : (BitVec.ofNat n (b2n c)).toNat = b2n c := by
  have : b2n c < 2 ^ n := (by cases c <;> decide : b2n c < 2 ^ 1).trans (Nat.pow_lt_pow_right (by decide) hn)
  rw [BitVec.toNat_ofNat, Nat.mod_eq_of_lt this]

theorem alu2_add (hn : 1 < n) : alu2 0x00 n a.toNat b.toNat c = (some (a + b).toNat,
    { resultFlags (a + b) with c := some (decide (2 ^ n ≤ a.toNat + b.toNat)), v := some (decide ((a + b).toInt ≠ a.toInt + b.toInt)) }) := by
  simp only [alu2, addF_toNat_zero a b (by omega : 0 < n), bne_eq_decide_ne]

theorem alu2_adc (hn : 1 < n) : let cy := BitVec.ofNat n (b2n c)
    alu2 0x01 n a.toNat b.toNat c = (some (a + b + cy).toNat,
    { resultFlags (a + b + cy) with c := some (decide (2 ^ n ≤ a.toNat + b.toNat + cy.toNat)), v := some (decide ((a + b + cy).toInt ≠ a.toInt + b.toInt + cy.toNat)) }) := by
  have h := addF_toNat a b (BitVec.ofNat n (b2n c)) (by omega)
  rw [toNat_ofNat_b2n c hn] at h
  simp only [alu2, h, toNat_ofNat_b2n c hn, bne_eq_decide_ne]

theorem alu2_sub (hn : 1 < n) : alu2 0x02 n a.toNat b.toNat c = (some (a - b).toNat,
    { resultFlags (a - b) with c := some (decide (a.toNat < b.toNat)), v := some (decide ((a - b).toInt ≠ a.toInt - b.toInt)) }) := by
  simp only [alu2, subF_toNat_zero a b (by omega : 0 < n), bne_eq_decide_ne]

theorem alu2_sbc (hn : 1 < n) : let cy := BitVec.ofNat n (b2n c)
    alu2 0x03 n a.toNat b.toNat c = (some (a - b - cy).toNat,
    { resultFlags (a - b - cy) with c := some (decide (a.toNat < b.toNat + cy.toNat)), v := some (decide ((a - b - cy).toInt ≠ a.toInt - b.toInt - cy.toNat)) }) := by
  have h := subF_toNat a b (BitVec.ofNat n (b2n c)) (by omega)
  rw [toNat_ofNat_b2n c hn] at h
  simp only [alu2, h, toNat_ofNat_b2n c hn, bne_eq_decide_ne]

theorem alu2_cmp (hn : 1 < n) : alu2 0x04 n a.toNat b.toNat c = (none,
    { resultFlags (a - b) with c := some (decide (a.toNat < b.toNat)), v := some (decide ((a - b).toInt ≠ a.toInt - b.toInt)), t := some (a - b == 0) }) := by
  simp only [alu2, subF_toNat_zero a b (by omega : 0 < n), bne_eq_decide_ne, withT, resultFlags]

theorem alu2_and : alu2 0x08 n a.toNat b.toNat c = (some (a &&& b).toNat, { resultFlags (a &&& b) with v := some false }) := by
  simp only [alu2, ← BitVec.toNat_and, logicF_toNat]

theorem alu2_or : alu2 0x09 n a.toNat b.toNat c = (some (a ||| b).toNat, { resultFlags (a ||| b) with v := some false }) := by
  simp only [alu2, ← BitVec.toNat_or, logicF_toNat]

theorem alu2_xor : alu2 0x0A n a.toNat b.toNat c = (some (a ^^^ b).toNat, { resultFlags (a ^^^ b) with v := some false }) := by
  simp only [alu2, ← BitVec.toNat_xor, logicF_toNat]

end

/-! The one-operand operations -/

section
variable {n : Nat} (a : BitVec n)

theorem toNat_beq (b : BitVec n) : (a.toNat == b.toNat) = (a == b) := by
  rw [Bool.eq_iff_iff, beq_iff_eq, beq_iff_eq, BitVec.toNat_eq]

theorem toNat_beq_two_pow (hn : 1 < n) : (a.toNat == 2 ^ (n - 1)) = (a == BitVec.intMin n) := by
  have : 2 ^ (n - 1) < 2 ^ n := Nat.pow_lt_pow_right (by decide) (by omega)
  rw [← toNat_beq, BitVec.toNat_intMin, Nat.mod_eq_of_lt this]

/-- The width's powers, as omega takes them. -/
theorem two_pow_width (hn : 1 < n) : 2 ^ n = 2 * 2 ^ (n - 1) ∧ 2 ≤ 2 ^ (n - 1) :=
  ⟨(mul_pow_sub_one (by omega) 2).symm, Nat.le_self_pow (by omega) 2⟩

theorem toNat_one_of_width (hn : 1 < n) : (1 : BitVec n).toNat = 1 :=
  Nat.mod_eq_of_lt (Nat.one_lt_two_pow (by omega))

theorem toInt_one_of_width (hn : 1 < n) : (1 : BitVec n).toInt = 1 := by
  obtain ⟨h2, h1⟩ := two_pow_width hn
  rw [BitVec.toInt_eq_toNat_cond, toNat_one_of_width hn, if_pos (by omega), Nat.cast_one]

/-- Adding 1 overflows at the greatest signed value only. -/
theorem add_one_overflows_iff (hn : 1 < n) : a.toInt + 1 ≠ (a + 1).toInt ↔ a = BitVec.intMax n := by
  obtain ⟨h2, h1⟩ := two_pow_width hn
  have ha := a.isLt
  have hsum : (a + 1).toNat = if a.toNat + 1 = 2 ^ n then 0 else a.toNat + 1 := by
    rw [BitVec.toNat_add, toNat_one_of_width hn]
    split_ifs with h
    · rw [h, Nat.mod_self]
    · exact Nat.mod_eq_of_lt (by omega)
  rw [BitVec.toNat_eq, BitVec.toNat_intMax, BitVec.toInt_eq_toNat_cond, BitVec.toInt_eq_toNat_cond, hsum]
  split_ifs <;> omega

/-- Subtracting 1 overflows at the least signed value only. -/
theorem sub_one_overflows_iff (hn : 1 < n) : a.toInt - 1 ≠ (a - 1).toInt ↔ a = BitVec.intMin n := by
  obtain ⟨h2, h1⟩ := two_pow_width hn
  have ha := a.isLt
  have hdif : (a - 1).toNat = if a.toNat = 0 then 2 ^ n - 1 else a.toNat - 1 := by
    rw [BitVec.toNat_sub, toNat_one_of_width hn]
    split_ifs with h
    · rw [h, Nat.add_zero, Nat.mod_eq_of_lt (by omega)]
    · rw [show 2 ^ n - 1 + a.toNat = a.toNat - 1 + 2 ^ n by omega, Nat.add_mod_right, Nat.mod_eq_of_lt (by omega)]
  rw [BitVec.toNat_eq, BitVec.toNat_intMin, Nat.mod_eq_of_lt (by omega), BitVec.toInt_eq_toNat_cond, BitVec.toInt_eq_toNat_cond, hdif]
  split_ifs <;> omega

theorem natAbs_toInt : a.toInt.natAbs = (if a.msb then -a else a).toNat := by
  have ha := a.isLt
  have habs := BitVec.toNat_abs (x := a)
  rw [BitVec.abs_eq] at habs
  rw [habs, BitVec.toInt_eq_msb_cond]
  split_ifs <;> omega

theorem alu1_neg (hn : 1 < n) : alu1 0x05 n a.toNat = ((-a).toNat, { resultFlags (-a) with c := some (a != 0), v := some (a == BitVec.intMin n) }) := by
  have hneg : ofSigned n (-(a.toNat : Int)) = (-a).toNat := by
    rw [ofSigned_eq_toNat, BitVec.ofInt_neg, BitVec.ofInt_natCast, BitVec.ofNat_toNat, BitVec.setWidth_eq]
  have hc : (a.toNat != 0) = (a != 0) := congrArg not (toNat_beq a 0)
  simp only [alu1, hneg, hc, zn_toNat, toNat_beq_two_pow a hn]

theorem alu1_inc (hn : 1 < n) : alu1 0x06 n a.toNat = ((a + 1).toNat,
    { resultFlags (a + 1) with c := some (a == BitVec.allOnes n), v := some (a == BitVec.intMax n) }) := by
  have ha := a.isLt
  have hc : decide (2 ^ n ≤ a.toNat + 1) = (a == BitVec.allOnes n) := by
    rw [← toNat_beq, BitVec.toNat_allOnes, Bool.eq_iff_iff, decide_eq_true_iff, beq_iff_eq]
    omega
  have hv : (a.toInt + 1 != (a + 1).toInt) = (a == BitVec.intMax n) := by
    rw [Bool.eq_iff_iff, bne_iff_ne, beq_iff_eq, add_one_overflows_iff a hn]
  have h := addF_toNat_zero a 1 (by omega)
  rw [toNat_one_of_width hn, toInt_one_of_width hn, hc, hv] at h
  exact h

theorem alu1_dcr (hn : 1 < n) : alu1 0x07 n a.toNat = ((a - 1).toNat, { resultFlags (a - 1) with c := some (a == 0), v := some (a == BitVec.intMin n) }) := by
  have hc : decide (a.toNat < 1) = (a == 0) := by
    rw [← toNat_beq, Bool.eq_iff_iff, decide_eq_true_iff, beq_iff_eq]
    exact Nat.lt_one_iff
  have hv : (a.toInt - 1 != (a - 1).toInt) = (a == BitVec.intMin n) := by
    rw [Bool.eq_iff_iff, bne_iff_ne, beq_iff_eq, sub_one_overflows_iff a hn]
  have h := subF_toNat_zero a 1 (by omega)
  rw [toNat_one_of_width hn, toInt_one_of_width hn, hc, hv] at h
  exact h

theorem alu1_not : alu1 0x0C n a.toNat = ((~~~a).toNat, { resultFlags (~~~a) with v := some false }) := by
  simp only [alu1, ← BitVec.toNat_not, logicF_toNat]

theorem alu1_tst : alu1 0x0D n a.toNat = (a.toNat, { resultFlags a with v := some false, t := some (a == 0) }) := by
  simp only [alu1, logicF_toNat, withT, resultFlags]

theorem alu1_abs (hn : 1 < n) : alu1 0x12 n a.toNat = ((if a.msb then -a else a).toNat,
    { resultFlags (if a.msb then -a else a) with v := some (a == BitVec.intMin n) }) := by
  simp only [alu1, toSigned_toNat (by omega : 0 < n), natAbs_toInt, zn_toNat, toNat_beq_two_pow a hn]

end

/-! The instructions -/

section
variable {s : State} {c : CoreId} {cond : Cond} {w : Bool} {base : List Word} {a : BitVec (wWidth w)}

/-- A one-operand operation leaves the result and the flags of its rule. -/
theorem computes_alu1 {r : BitVec (wWidth w)} {fl : FlagUpd} (op : Nat) (h : Fires s c cond 1) (hh : Holds (s.core c.val) (base ++ valueWords w a))
    (hr : alu1 op (wWidth w) a.toNat = (r.toNat, fl)) :
    Computes s (issue (alu1Op op w) c cond s) c 1 1 (base ++ valueWords w r) fl :=
  computes_of_flags_in_place h hh (valueWords_length w a) (valueWords_length w r) le_rfl rfl
    (by simp only [issuing_argW, holds_argW_top hh, hr, entries_toNat])

theorem computes_exts {x : Word} (h : Fires s c cond 1) (hh : Holds (s.core c.val) (base ++ [x])) (hroom : Room (s.core c.val) (base.length + 2)) :
    Computes s (issue (extOp true) c cond s) c 1 1 (base ++ valueWords true (x.signExtend 32)) (resultFlags (x.signExtend 32)) :=
  computes_of_flags h hh rfl rfl hroom rfl
    (by simp only [issuing_arg, holds_arg_top hh, if_true, ofSigned_toSigned (by decide : 0 < 16), zn_toNat]; rfl)

theorem computes_extz {x : Word} (h : Fires s c cond 1) (hh : Holds (s.core c.val) (base ++ [x])) (hroom : Room (s.core c.val) (base.length + 2)) :
    Computes s (issue (extOp false) c cond s) c 1 1 (base ++ valueWords true (x.zeroExtend 32)) (resultFlags (x.zeroExtend 32)) := by
  have hx : (x.zeroExtend 32).toNat = x.toNat := BitVec.toNat_setWidth_of_le (by decide)
  exact computes_of_flags h hh rfl rfl hroom rfl
    (by simp only [issuing_arg, holds_arg_top hh, Bool.false_eq_true, if_false, ← hx, zn_toNat]; rfl)

/-- The second operand of ALUI (R238): sign-extended for ADD to CMP, zero-extended for the logic. -/
def aluiOperand (op : Nat) (w : Bool) (imm : Word) : BitVec (wWidth w) :=
  if op ≤ 4 then imm.signExtend (wWidth w) else imm.zeroExtend (wWidth w)

theorem aluiOperand_toNat (op : Nat) (w : Bool) (imm : Word) :
    (aluiOperand op w imm).toNat = if w = true ∧ op ≤ 4 then ofSigned 32 (toSigned 16 imm.toNat) else imm.toNat := by
  unfold aluiOperand
  cases w with
  | false =>
    rw [if_neg (fun h : false = true ∧ op ≤ 4 => Bool.false_ne_true h.1)]
    split_ifs
    · exact congrArg BitVec.toNat (BitVec.signExtend_eq imm)
    · exact congrArg BitVec.toNat (BitVec.setWidth_eq imm)
  | true =>
    by_cases hop : op ≤ 4
    · rw [if_pos hop, if_pos ⟨rfl, hop⟩, ofSigned_toSigned (by decide)]; rfl
    · rw [if_neg hop, if_neg (by simp [hop])]
      exact BitVec.toNat_setWidth_of_le (by decide)

/-- An ALUI operation with a result leaves the result and the flags of its rule. -/
theorem computes_alui {r : BitVec (wWidth w)} {imm : Word} {fl : FlagUpd} (op : Nat) (hop : op ≠ 4) (h : Fires s c cond 2)
    (hh : Holds (s.core c.val) (base ++ valueWords w a))
    (hr : alu2 (aluiSel op) (wWidth w) a.toNat (aluiOperand op w imm).toNat (s.core c.val).cf = (some r.toNat, fl)) :
    Computes s (issue (aluiOp op w imm.toNat) c cond s) c 2 2 (base ++ valueWords w r) fl :=
  computes_of_flags_in_place h hh (valueWords_length w a) ((valueWords_length w r).trans (if_neg hop).symm) (le_of_eq (if_neg hop)) rfl
    (by simp only [issuing_argW, issuing_cf, holds_argW_top hh, ← aluiOperand_toNat, hr, entries_toNat])

/-- ALUI CMP drops its operand and leaves the flags of its rule. -/
theorem computes_aluiCmp {imm : Word} {fl : FlagUpd} (h : Fires s c cond 2) (hh : Holds (s.core c.val) (base ++ valueWords w a))
    (hr : alu2 4 (wWidth w) a.toNat (aluiOperand 4 w imm).toNat (s.core c.val).cf = (none, fl)) :
    Computes s (issue (aluiOp 4 w imm.toNat) c cond s) c 2 2 base fl := by
  have hsel : aluiSel 4 = 4 := rfl
  have := computes_of_flags_in_place (o := aluiOp 4 w imm.toNat) (out := []) (fl := fl) h hh (valueWords_length w a) rfl (Nat.zero_le _) rfl
    (by simp only [issuing_argW, issuing_cf, holds_argW_top hh, ← aluiOperand_toNat, hsel, hr])
  rwa [List.append_nil] at this

end

/-- Settles O14: each operation by its flag rule, on the operands that the stack holds. -/
theorem oneOperandAndImmediateArithmeticFollowTable84 : Obligations.OneOperandAndImmediateArithmeticFollowTable84 := by
  refine ⟨fun s c cond w base a x h => ⟨fun hh => ?_, fun hh hroom => ⟨computes_exts h hh hroom, computes_extz h hh hroom⟩⟩,
    fun s c cond w base a imm h hh => ?_⟩
  · have hn := wWidth_pos w
    exact ⟨computes_alu1 0x05 h hh (alu1_neg a hn), computes_alu1 0x06 h hh (alu1_inc a hn), computes_alu1 0x07 h hh (alu1_dcr a hn),
      computes_alu1 0x0C h hh (alu1_not a), computes_alu1 0x0D h hh (alu1_tst a), computes_alu1 0x12 h hh (alu1_abs a hn)⟩
  · have hn := wWidth_pos w
    exact ⟨computes_alui 0 (by decide) h hh (alu2_add a _ _ hn), computes_alui 1 (by decide) h hh (alu2_adc a _ _ hn),
      computes_alui 2 (by decide) h hh (alu2_sub a _ _ hn), computes_alui 3 (by decide) h hh (alu2_sbc a _ _ hn),
      computes_aluiCmp h hh (alu2_cmp a _ _ hn), computes_alui 5 (by decide) h hh (alu2_and a _ _),
      computes_alui 6 (by decide) h hh (alu2_or a _ _), computes_alui 7 (by decide) h hh (alu2_xor a _ _)⟩

end Sys2Proof.Machine
end

section
/-! SUPPORT. Packed decimal (R242): the digit loops, the digits that they leave, the numbers that those weigh, and each instruction of Table 8.7 by them. -/
namespace Sys2Proof.Machine
open Sys2Proof

/-! Digits of a number that is built from its low digits up -/

theorem bcdDigit_eq (v i : Nat) : bcdDigit v i = v / 16 ^ i % 16 := by
  rw [bcdDigit, Nat.shiftRight_eq_div_pow, pow_mul]
  rfl

/-- A number put above `i` low digits: the digits below `i` are those of `r`, the others those of `q`. -/
theorem bcdDigit_append {r i : Nat} (q : Nat) (hr : r < 16 ^ i) (j : Nat) :
    bcdDigit (r + q * 16 ^ i) j = if j < i then bcdDigit r j else bcdDigit q (j - i) := by
  simp only [bcdDigit_eq]
  split_ifs with hj
  · obtain ⟨d, rfl⟩ : ∃ d, i = j + 1 + d := ⟨i - (j + 1), by omega⟩
    have : q * 16 ^ (j + 1 + d) = 16 ^ j * (16 * (q * 16 ^ d)) := by ring
    rw [this, Nat.add_mul_div_left _ _ (by positivity), Nat.add_mul_mod_self_left]
  · obtain ⟨d, rfl⟩ : ∃ d, j = i + d := ⟨j - i, by omega⟩
    rw [pow_add, ← Nat.div_div_eq_div_mul, Nat.add_mul_div_right _ _ (by positivity), Nat.div_eq_of_lt hr, Nat.zero_add, Nat.add_sub_cancel_left]

/-- The weight of `n` digits is the sum of what each weighs. -/
theorem fromBcd_succ (n v : Nat) : fromBcd (n + 1) v = fromBcd n v + 10 ^ n * bcdDigit v n := by
  induction n generalizing v with
  | zero => simp [fromBcd, bcdDigit_eq]
  | succ n ih =>
    have hd : bcdDigit (v / 16) n = bcdDigit v (n + 1) := by
      rw [bcdDigit_eq, bcdDigit_eq, Nat.div_div_eq_div_mul, pow_succ']
    rw [fromBcd, ih, hd, fromBcd]
    ring

/-! The digit loops -/

/-- One digit step of an addition: the digit of the result and the carry into the next digit. -/
def addDigit (a b i cy : Nat) : Nat × Nat :=
  let x := bcdDigit a i + bcdDigit b i + cy
  if 9 < x then ((x + 6) % 16, 1) else (x % 16, 0)

/-- One digit step of a subtraction: the digit of the result and the borrow from the next digit. -/
def subDigit (a b i bw : Nat) : Nat × Nat :=
  let x : Int := (bcdDigit a i : Int) - bcdDigit b i - bw
  if x < 0 then (ofSigned 4 (x + 10), 1) else (ofSigned 4 x, 0)

section
variable (step : Nat → Nat → Nat × Nat) (cy : Nat)

/-- The carry into digit `i` of a run of digit steps. -/
def carryInto : Nat → Nat
  | 0 => cy
  | i + 1 => (step i (carryInto i)).2

/-- The low `n` digits that a run of digit steps leaves. -/
def digitsRun : Nat → Nat
  | 0 => 0
  | i + 1 => digitsRun i + (step i (carryInto step cy i)).1 * 16 ^ i

variable {step} (hstep : ∀ i k, (step i k).1 < 16)
include hstep

theorem digitsRun_lt (n : Nat) : digitsRun step cy n < 16 ^ n := by
  induction n with
  | zero => exact Nat.one_pos
  | succ n ih =>
    have : (step n (carryInto step cy n)).1 * 16 ^ n ≤ 15 * 16 ^ n := Nat.mul_le_mul_right _ (Nat.le_of_lt_succ (hstep _ _))
    rw [digitsRun, pow_succ]
    omega

theorem bcdDigit_digitsRun {n i : Nat} (hi : i < n) : bcdDigit (digitsRun step cy n) i = (step i (carryInto step cy i)).1 := by
  induction n with
  | zero => omega
  | succ n ih =>
    rw [digitsRun, bcdDigit_append _ (digitsRun_lt cy hstep n)]
    split_ifs with h
    · exact ih h
    · obtain rfl : i = n := by omega
      rw [Nat.sub_self, bcdDigit_eq, pow_zero, Nat.div_one, Nat.mod_eq_of_lt (hstep _ _)]

end

theorem shiftLeft_digit (d i : Nat) : d <<< (4 * i) = d * 16 ^ i := by
  rw [Nat.shiftLeft_eq, pow_mul]
  rfl

theorem bcdAdd_eq (a b cy k i : Nat) :
    bcdAdd a b k i (carryInto (addDigit a b) cy i) (digitsRun (addDigit a b) cy i) = (digitsRun (addDigit a b) cy (i + k), carryInto (addDigit a b) cy (i + k)) := by
  induction k generalizing i with
  | zero => rfl
  | succ k ih =>
    have hnext := ih (i + 1)
    rw [show i + 1 + k = i + (k + 1) by omega, carryInto, digitsRun, addDigit] at hnext
    rw [bcdAdd, shiftLeft_digit, shiftLeft_digit]
    split
    · next hx => rwa [if_pos hx] at hnext
    · next hx => rwa [if_neg hx] at hnext

theorem bcdSub_eq (a b cy k i : Nat) :
    bcdSub a b k i (carryInto (subDigit a b) cy i) (digitsRun (subDigit a b) cy i) = (digitsRun (subDigit a b) cy (i + k), carryInto (subDigit a b) cy (i + k)) := by
  induction k generalizing i with
  | zero => rfl
  | succ k ih =>
    have hnext := ih (i + 1)
    rw [show i + 1 + k = i + (k + 1) by omega, carryInto, digitsRun, subDigit] at hnext
    rw [bcdSub, shiftLeft_digit, shiftLeft_digit]
    split
    · next hx => rwa [if_pos hx] at hnext
    · next hx => rwa [if_neg hx] at hnext

theorem ofSigned_four (x : Int) : (ofSigned 4 x : Int) = x % 16 :=
  Int.toNat_of_nonneg (Int.emod_nonneg x (by decide))

theorem addDigit_lt (a b i cy : Nat) : (addDigit a b i cy).1 < 16 := by
  unfold addDigit
  dsimp only
  split_ifs <;> exact Nat.mod_lt _ (by decide)

theorem subDigit_lt (a b i bw : Nat) : (subDigit a b i bw).1 < 16 := by
  have hlt (x : Int) : ofSigned 4 x < 16 := by have := ofSigned_four x; omega
  unfold subDigit
  dsimp only
  split_ifs <;> exact hlt _

theorem bcdBad_eq_true_iff (n v : Nat) : bcdBad n v = true ↔ ∃ i < n, 9 < bcdDigit v i := by
  simp only [bcdBad, List.any_eq_true, List.mem_range, decide_eq_true_iff]

/-- The flags of a decimal result (R242), its last carry or borrow `k`. -/
theorem bcdFlags_eq (n a b r k : Nat) : bcdFlags n r (k == 1) (bcdBad n a || bcdBad n b) =
    { z := some (decide (r = 0)), n := some (decide (5 ≤ bcdDigit r (n - 1))), c := none, d := some (decide (k = 1)),
      v := some (decide (∃ i < n, 9 < bcdDigit a i ∨ 9 < bcdDigit b i)) } := by
  have hv : (bcdBad n a || bcdBad n b) = decide (∃ i < n, 9 < bcdDigit a i ∨ 9 < bcdDigit b i) := by
    rw [Bool.eq_iff_iff, Bool.or_eq_true, bcdBad_eq_true_iff, bcdBad_eq_true_iff, decide_eq_true_iff, ← exists_or]
    simp only [← and_or_left]
  rw [bcdFlags, hv, beq_eq_decide, beq_eq_decide]

/-- The digits that R242's steps give for a sum: `k i` is the carry into digit `i`. -/
def SumDigits (n a b r : Nat) (k : Nat → Nat) : Prop :=
  ∀ i < n, let x := bcdDigit a i + bcdDigit b i + k i
    k (i + 1) = (if 9 < x then 1 else 0) ∧ bcdDigit r i = (if 9 < x then x + 6 else x) % 16

/-- The digits that R242's steps give for a difference: `k i` is the borrow from digit `i`. -/
def DifDigits (n a b r : Nat) (k : Nat → Nat) : Prop :=
  ∀ i < n, let x : Int := (bcdDigit a i : Int) - bcdDigit b i - k i
    k (i + 1) = (if x < 0 then 1 else 0) ∧ (bcdDigit r i : Int) = (if x < 0 then x + 10 else x) % 16

section
variable (n a b cy : Nat)

theorem daddF_eq : daddF n a b cy = (digitsRun (addDigit a b) cy n,
    bcdFlags n (digitsRun (addDigit a b) cy n) (carryInto (addDigit a b) cy n == 1) (bcdBad n a || bcdBad n b)) := by
  have h := bcdAdd_eq a b cy n 0
  rw [Nat.zero_add, carryInto, digitsRun] at h
  rw [daddF, h]

theorem dsubF_eq : dsubF n a b cy = (digitsRun (subDigit a b) cy n,
    bcdFlags n (digitsRun (subDigit a b) cy n) (carryInto (subDigit a b) cy n == 1) (bcdBad n a || bcdBad n b)) := by
  have h := bcdSub_eq a b cy n 0
  rw [Nat.zero_add, carryInto, digitsRun] at h
  rw [dsubF, h]

theorem daddF_digits : SumDigits n a b (daddF n a b cy).1 (carryInto (addDigit a b) cy) := by
  intro i hi
  rw [daddF_eq, bcdDigit_digitsRun cy (addDigit_lt a b) hi]
  dsimp only [carryInto, addDigit]
  split_ifs <;> exact ⟨rfl, rfl⟩

theorem dsubF_digits : DifDigits n a b (dsubF n a b cy).1 (carryInto (subDigit a b) cy) := by
  intro i hi
  rw [dsubF_eq, bcdDigit_digitsRun cy (subDigit_lt a b) hi]
  dsimp only [carryInto, subDigit]
  split_ifs <;> exact ⟨rfl, ofSigned_four _⟩

end

/-! The numbers that the digits weigh -/

/-- Digits that carry as those of a sum do weigh the sum. -/
theorem fromBcd_of_carries {n u a b : Nat} {k : Nat → Nat} (h : ∀ i < n, bcdDigit u i + 10 * k (i + 1) = bcdDigit a i + bcdDigit b i + k i) :
    fromBcd n u + 10 ^ n * k n = fromBcd n a + fromBcd n b + k 0 := by
  induction n with
  | zero => simp [fromBcd]
  | succ n ih =>
    have hlow := ih fun i hi => h i (by omega)
    have htop := congrArg (10 ^ n * ·) (h n (by omega))
    simp only [fromBcd_succ, pow_succ, mul_add] at htop ⊢
    linarith

theorem carry_le_one {n : Nat} {k : Nat → Nat} {p : Nat → Prop} [∀ i, Decidable (p i)] (h0 : k 0 ≤ 1)
    (h : ∀ i < n, k (i + 1) = if p i then 1 else 0) {i : Nat} (hi : i ≤ n) : k i ≤ 1 := by
  cases i with
  | zero => exact h0
  | succ i => rw [h i hi]; split_ifs <;> decide

theorem b2n_decide_eq_one {k : Nat} (h : k ≤ 1) : b2n (decide (k = 1)) = k := by
  obtain rfl | rfl : k = 0 ∨ k = 1 := by omega
  all_goals rfl

section
variable {n a b r : Nat} {k : Nat → Nat} (hdigits : ∀ i < n, bcdDigit a i ≤ 9 ∧ bcdDigit b i ≤ 9) (h0 : k 0 ≤ 1)
include hdigits h0

/-- On decimal digits, the steps of a sum leave decimal digits that weigh it. -/
theorem SumDigits.weigh (h : SumDigits n a b r k) :
    fromBcd n r + 10 ^ n * b2n (decide (k n = 1)) = fromBcd n a + fromBcd n b + k 0 ∧ ∀ i < n, bcdDigit r i ≤ 9 := by
  have hk {i : Nat} (hi : i ≤ n) : k i ≤ 1 := carry_le_one h0 (fun i hi => (h i hi).1) hi
  have hstep (i : Nat) (hi : i < n) : bcdDigit r i + 10 * k (i + 1) = bcdDigit a i + bcdDigit b i + k i ∧ bcdDigit r i ≤ 9 := by
    obtain ⟨hnext, hdigit⟩ := h i hi
    have := hdigits i hi
    have := hk hi.le
    split_ifs at hnext hdigit <;> omega
  rw [b2n_decide_eq_one (hk le_rfl)]
  exact ⟨fromBcd_of_carries fun i hi => (hstep i hi).1, fun i hi => (hstep i hi).2⟩

/-- On decimal digits, the steps of a difference leave decimal digits that weigh it. -/
theorem DifDigits.weigh (h : DifDigits n a b r k) :
    fromBcd n r + fromBcd n b + k 0 = fromBcd n a + 10 ^ n * b2n (decide (k n = 1)) ∧ ∀ i < n, bcdDigit r i ≤ 9 := by
  have hk {i : Nat} (hi : i ≤ n) : k i ≤ 1 := carry_le_one h0 (fun i hi => (h i hi).1) hi
  have hstep (i : Nat) (hi : i < n) : bcdDigit a i + 10 * k (i + 1) = bcdDigit r i + bcdDigit b i + k i ∧ bcdDigit r i ≤ 9 := by
    obtain ⟨hnext, hdigit⟩ := h i hi
    have := hdigits i hi
    have := hk hi.le
    split_ifs at hnext hdigit <;> omega
  rw [b2n_decide_eq_one (hk le_rfl)]
  exact ⟨(fromBcd_of_carries fun i hi => (hstep i hi).1).symm, fun i hi => (hstep i hi).2⟩

end

/-! Conversions -/

theorem fromBcd_lt (w : Bool) (v : Nat) : fromBcd (decDigits w) v < 2 ^ wWidth w := by
  have hbound (n v : Nat) : 9 * fromBcd n v ≤ 15 * (10 ^ n - 1) := by
    induction n generalizing v with
    | zero => simp [fromBcd]
    | succ n ih =>
      have := ih (v / 16)
      have : 1 ≤ 10 ^ n := Nat.one_le_pow _ _ (by decide)
      rw [fromBcd, pow_succ]
      omega
  cases w with
  | false =>
    have h : 9 * fromBcd 4 v ≤ 149985 := hbound 4 v
    exact (by omega : fromBcd 4 v < 65536)
  | true =>
    have h : 9 * fromBcd 8 v ≤ 1499999985 := hbound 8 v
    exact (by omega : fromBcd 8 v < 4294967296)

theorem toBcd_eq_zero_iff {n v : Nat} (h : v < 10 ^ n) : toBcd n v = 0 ↔ v = 0 := by
  induction n generalizing v with
  | zero =>
    obtain rfl : v = 0 := Nat.lt_one_iff.1 h
    simp [toBcd]
  | succ n ih =>
    have := ih (v := v / 10) (by rw [pow_succ] at h; omega)
    rw [toBcd]
    omega

/-! The instructions -/

section
variable {s : State} {c : CoreId} {cond : Cond} {w : Bool} {base : List Word} {a b : BitVec (wWidth w)}

/-- A decimal instruction that leaves one result and the flags that go with it. -/
theorem computes_decimal {o : CoreOp} {ins : List Word} {f : Core → List Word × FlagUpd} (r : Nat × FlagUpd) (h : Fires s c cond o.len)
    (hh : Holds (s.core c.val) (base ++ ins)) (hn : ins.length = o.need) (hl : o.leave = wWords w) (hle : wWords w ≤ ins.length)
    (ho : o.act = .core fun k => .ok ((k.replace o.need (f k).1).flags (f k).2)) (hf : f (s.core c.val).issuing = (entries (wWidth w) r.1, r.2)) :
    Computes s (issue o c cond s) c o.len o.count (base ++ valueWords w (BitVec.ofNat _ r.1)) r.2 :=
  computes_of_flags_in_place h hh hn ((valueWords_length w _).trans hl.symm) (by omega) ho (by rw [hf, entries_eq_valueWords])

/-- DADD, DADC, DSUB and DSBC, in the order of their operand bytes. -/
theorem computes_dec2 (h : Fires s c cond 1) (hh : Holds (s.core c.val) (base ++ (valueWords w a ++ valueWords w b))) :
    let gives (op : Nat) (r : Nat × FlagUpd) : Prop := Computes s (issue (dec2Op op w) c cond s) c 1 1 (base ++ valueWords w (BitVec.ofNat _ r.1)) r.2
    gives 0 (daddF (decDigits w) a.toNat b.toNat 0) ∧ gives 1 (daddF (decDigits w) a.toNat b.toNat (b2n (s.core c.val).d)) ∧
    gives 2 (dsubF (decDigits w) a.toNat b.toNat 0) ∧ gives 3 (dsubF (decDigits w) a.toNat b.toNat (b2n (s.core c.val).d)) := by
  obtain ⟨ha, hb⟩ := holds_argW_pair hh
  have hn : (valueWords w a ++ valueWords w b).length = 2 * wWords w := by simp [two_mul]
  have hle : wWords w ≤ (valueWords w a ++ valueWords w b).length := by omega
  exact ⟨computes_decimal _ h hh hn rfl hle rfl (by simp [ha, hb]), computes_decimal _ h hh hn rfl hle rfl (by simp [ha, hb]),
    computes_decimal _ h hh hn rfl hle rfl (by simp [ha, hb]), computes_decimal _ h hh hn rfl hle rfl (by simp [ha, hb])⟩

theorem computes_dcmp (h : Fires s c cond 1) (hh : Holds (s.core c.val) (base ++ (valueWords w a ++ valueWords w b))) :
    Computes s (issue (dec2Op 5 w) c cond s) c 1 1 base (withT (dsubF (decDigits w) a.toNat b.toNat 0).2) := by
  obtain ⟨ha, hb⟩ := holds_argW_pair hh
  have hn : (valueWords w a ++ valueWords w b).length = 2 * wWords w := by simp [two_mul]
  have := computes_of_flags_in_place (o := dec2Op 5 w) (out := []) (fl := withT (dsubF (decDigits w) a.toNat b.toNat 0).2) h hh hn rfl (Nat.zero_le _) rfl
    (by simp [ha, hb])
  rwa [List.append_nil] at this

theorem computes_dneg (h : Fires s c cond 1) (hh : Holds (s.core c.val) (base ++ valueWords w a)) :
    let r := dsubF (decDigits w) 0 a.toNat 0
    Computes s (issue (dnegOp w) c cond s) c 1 1 (base ++ valueWords w (BitVec.ofNat _ r.1)) r.2 :=
  computes_decimal _ h hh (valueWords_length w a) rfl (valueWords_length w a).ge rfl (by simp [holds_argW_top hh])

theorem computes_cvtdb (h : Fires s c cond 1) (hh : Holds (s.core c.val) (base ++ valueWords w a)) :
    Computes s (issue (cvtdbOp w) c cond s) c 1 1 (base ++ valueWords w (BitVec.ofNat _ (fromBcd (decDigits w) a.toNat)))
      { z := some (decide (fromBcd (decDigits w) a.toNat = 0)), v := some (decide (∃ i < decDigits w, 9 < bcdDigit a.toNat i)) } := by
  have hv : bcdBad (decDigits w) a.toNat = decide (∃ i < decDigits w, 9 < bcdDigit a.toNat i) := by
    rw [Bool.eq_iff_iff, bcdBad_eq_true_iff, decide_eq_true_iff]
  exact computes_decimal (fromBcd (decDigits w) a.toNat, _) h hh (valueWords_length w a) rfl (valueWords_length w a).ge rfl
    (by simp only [issuing_argW, holds_argW_top hh, Nat.mod_eq_of_lt (fromBcd_lt w _), hv, beq_eq_decide])

theorem computes_cvtbd (h : Fires s c cond 1) (hh : Holds (s.core c.val) (base ++ valueWords w a)) (hroom : Room (s.core c.val) (base.length + 2)) :
    Computes s (issue (cvtbdOp w) c cond s) c 1 1 (base ++ valueWords true (BitVec.ofNat _ (toBcd 8 (a.toNat % 100000000))))
      { z := some (decide (a.toNat % 100000000 = 0)), v := some (decide (99999999 < a.toNat)) } := by
  have hlt : a.toNat % 100000000 < 10 ^ 8 := Nat.mod_lt _ (by decide)
  have hz : (toBcd 8 (a.toNat % 100000000) == 0) = decide (a.toNat % 100000000 = 0) := by
    rw [Bool.eq_iff_iff, beq_iff_eq, decide_eq_true_iff, toBcd_eq_zero_iff hlt]
  exact computes_of_flags h hh (valueWords_length w a) (valueWords_length true _) hroom rfl
    (by simp only [issuing_argW, holds_argW_top hh, hz, ← entries_eq_valueWords]; rfl)

end

/-- Settles O16: each instruction by the digit steps, and the steps by the carries between their digits. -/
theorem decimalInstructionsFollowTable87 : Obligations.DecimalInstructionsFollowTable87 := by
  refine ⟨fun s c cond w base a b h => ⟨fun hh => ?_, fun hh => ⟨computes_dneg h hh, computes_cvtdb h hh, computes_cvtbd h hh⟩⟩,
    fun n a b cy => ?_⟩
  · obtain ⟨hdadd, hdadc, hdsub, hdsbc⟩ := computes_dec2 h hh
    exact ⟨hdadd, hdadc, hdsub, hdsbc, computes_dcmp h hh⟩
  · have hsum := daddF_digits n a b cy
    have hdif := dsubF_digits n a b cy
    refine ⟨⟨_, rfl, by rw [daddF_eq, bcdFlags_eq], hsum⟩, ⟨_, rfl, by rw [dsubF_eq, bcdFlags_eq], hdif⟩, fun hdigits hcy => ⟨?_, ?_⟩⟩
    · exact ⟨_, by rw [daddF_eq, bcdFlags_eq], hsum.weigh hdigits hcy⟩
    · exact ⟨_, by rw [dsubF_eq, bcdFlags_eq], hdif.weigh hdigits hcy⟩

end Sys2Proof.Machine
end

section
/-! SUPPORT. Bit instructions and CRC steps of Table 8.8 (R243, R244): what each leaves of the single bits, and CRC steps as a fold over data bits. -/
namespace Sys2Proof.Machine
open Sys2Proof

/-! Single bits -/

theorem setBitsN_bit (v n x : Nat) : setBitsN v n n x = 2 ^ n * (2 * (v / 2 ^ (n + 1)) + x % 2) + v % 2 ^ n := by
  have hone : n + 1 - n = 1 := by omega
  have hlow := Nat.div_add_mod v (2 ^ n)
  have hhigh := Nat.div_add_mod (v / 2 ^ n) 2
  have hdiv : v / 2 ^ n / 2 = v / 2 ^ (n + 1) := by rw [Nat.div_div_eq_div_mul, pow_succ]
  rw [setBitsN, bitsN, hone, pow_one, Nat.shiftRight_eq_div_pow, Nat.shiftLeft_eq, Nat.shiftLeft_eq]
  rw [hdiv] at hhigh
  have hv : v = 2 ^ n * (2 * (v / 2 ^ (n + 1))) + v % 2 ^ n + v / 2 ^ n % 2 * 2 ^ n := by
    calc v = 2 ^ n * (2 * (v / 2 ^ (n + 1)) + v / 2 ^ n % 2) + v % 2 ^ n := by rw [hhigh, hlow]
      _ = _ := by ring
  rw [Nat.sub_eq_of_eq_add hv]
  ring

theorem setBitsN_testBit (v n x j : Nat) : (setBitsN v n n x).testBit j = if j = n then bitN x 0 else v.testBit j := by
  rw [setBitsN_bit, Nat.testBit_two_pow_mul_add _ (Nat.mod_lt _ (by positivity))]
  obtain hj | rfl | hj := Nat.lt_trichotomy j n
  · rw [if_pos hj, if_neg hj.ne, Nat.testBit_mod_two_pow, decide_eq_true hj, Bool.true_and]
  · rw [if_neg (lt_irrefl _), if_pos rfl, Nat.sub_self, ← bitN_eq_testBit]
    simp [bitN]
  · obtain ⟨d, rfl⟩ : ∃ d, j = n + 1 + d := ⟨j - (n + 1), by omega⟩
    have hhalf : (2 * (v / 2 ^ (n + 1)) + x % 2) / 2 = v / 2 ^ (n + 1) := by omega
    rw [if_neg (by omega), if_neg (by omega), show n + 1 + d - n = d + 1 by omega, Nat.testBit_add_one, hhalf, Nat.testBit_div_two_pow, Nat.add_comm]

theorem wd_testBit (v : Nat) {j : Nat} (hj : j < 16) : (wd v).getLsbD j = v.testBit j := by
  rw [wd, BitVec.getLsbD_ofNat, decide_eq_true hj, Bool.true_and]

theorem wd_toNat (a : Word) : wd a.toNat = a := by
  rw [wd, BitVec.ofNat_toNat, BitVec.setWidth_eq]

theorem wd_setBitsN_getLsbD (a : Word) (n x : Nat) {j : Nat} (hj : j < 16) :
    (wd (setBitsN a.toNat n n x)).getLsbD j = if j = n then bitN x 0 else a.getLsbD j := by
  rw [wd_testBit _ hj, setBitsN_testBit]
  rfl

theorem twoPow_getLsbD (n : Nat) {j : Nat} (hj : j < 16) : (BitVec.twoPow 16 n).getLsbD j = decide (j = n) := by
  rw [BitVec.getLsbD_twoPow, Bool.eq_iff_iff, Bool.and_eq_true, decide_eq_true_iff, decide_eq_true_iff, decide_eq_true_iff]
  omega

theorem wd_setBitsN_one (a : Word) (n : Nat) : wd (setBitsN a.toNat n n 1) = a ||| BitVec.twoPow 16 n := by
  refine BitVec.eq_of_getLsbD_eq fun j hj => ?_
  rw [wd_setBitsN_getLsbD a n 1 hj, BitVec.getLsbD_or, twoPow_getLsbD n hj]
  split_ifs with h <;> simp [h, bitN]

theorem wd_setBitsN_zero (a : Word) (n : Nat) : wd (setBitsN a.toNat n n 0) = a &&& ~~~(BitVec.twoPow 16 n) := by
  refine BitVec.eq_of_getLsbD_eq fun j hj => ?_
  rw [wd_setBitsN_getLsbD a n 0 hj, BitVec.getLsbD_and, BitVec.getLsbD_not, twoPow_getLsbD n hj]
  split_ifs with h <;> simp [h, hj, bitN]

theorem wd_setBitsN_not (a : Word) (n : Nat) : wd (setBitsN a.toNat n n (1 - b2n (bitN a.toNat n))) = a ^^^ BitVec.twoPow 16 n := by
  have hinv (b : Bool) : bitN (1 - b2n b) 0 = !b := by cases b <;> rfl
  refine BitVec.eq_of_getLsbD_eq fun j hj => ?_
  rw [wd_setBitsN_getLsbD a n _ hj, hinv, bitN_toNat, BitVec.getLsbD_xor, twoPow_getLsbD n hj]
  split_ifs with h <;> simp [h]

theorem zn_eq_resultFlags {n : Nat} (hn : 0 < n) (r : Nat) : zn n r = resultFlags (BitVec.ofNat n r) := by
  have hlast : n - 1 < n := by omega
  rw [← zn_toNat, BitVec.toNat_ofNat]
  simp [zn, bitN_eq_testBit, Nat.testBit_mod_two_pow, hlast]

theorem revLow_lt (w v : Nat) : revLow w v < 2 ^ w := by
  induction w generalizing v with
  | zero => exact Nat.one_pos
  | succ w ih =>
    have := ih (v / 2)
    obtain h | h : v % 2 = 0 ∨ v % 2 = 1 := by omega
    all_goals rw [revLow, h, pow_succ]; omega

theorem revLow_testBit (w v i : Nat) : (revLow w v).testBit i = (decide (i < w) && v.testBit (w - 1 - i)) := by
  induction w generalizing v i with
  | zero => simp [revLow]
  | succ w ih =>
    rw [revLow, Nat.mul_comm, Nat.testBit_two_pow_mul_add _ (revLow_lt _ _), ih]
    by_cases hi : i < w
    · rw [if_pos hi, decide_eq_true hi, decide_eq_true (by omega : i < w + 1), Bool.true_and, Bool.true_and, Nat.testBit_div_two,
        show w - 1 - i + 1 = w + 1 - 1 - i by omega]
    · rw [if_neg hi]
      obtain rfl | hi := (Nat.le_of_not_lt hi).eq_or_lt
      · simp [Nat.testBit_zero]
      · have hbit : v % 2 < 2 ^ (i - w) := (Nat.mod_lt v (by decide)).trans_le (Nat.le_self_pow (by omega) 2)
        rw [Nat.testBit_lt_two_pow hbit, decide_eq_false (by omega), Bool.false_and]

/-- BREV: the low `n + 1` bits come in the reverse order. -/
theorem wd_brev (a : Word) (n : Nat) {i : Nat} (hi : i < 16) :
    (wd (a.toNat / 2 ^ (n + 1) * 2 ^ (n + 1) + revLow (n + 1) (a.toNat % 2 ^ (n + 1)))).getLsbD i = if i ≤ n then a.getLsbD (n - i) else a.getLsbD i := by
  rw [wd_testBit _ hi, Nat.mul_comm, Nat.testBit_two_pow_mul_add _ (revLow_lt _ _), revLow_testBit]
  by_cases h : i ≤ n
  · rw [if_pos (by omega), if_pos h, Nat.testBit_mod_two_pow]
    rw [decide_eq_true (by omega), decide_eq_true (by omega), Bool.true_and, Bool.true_and, Nat.add_sub_cancel]
    rfl
  · rw [if_neg (by omega), if_neg h, Nat.testBit_div_two_pow, show i - (n + 1) + (n + 1) = i by omega]
    rfl

/-- The leading zeros of a word (CLZ). -/
def leadingZeros (a : Word) : Nat := if a.toNat = 0 then 16 else 15 - a.toNat.log2

theorem leadingZeros_spec (a : Word) :
    leadingZeros a ≤ 16 ∧ (∀ i < 16, 16 - leadingZeros a ≤ i → a.getLsbD i = false) ∧ (leadingZeros a < 16 → a.getLsbD (15 - leadingZeros a) = true) := by
  unfold leadingZeros
  split_ifs with ha
  · obtain rfl : a = 0 := BitVec.eq_of_toNat_eq ha
    simp
  · have hlog : a.toNat.log2 < 16 := (Nat.log2_lt ha).2 a.isLt
    refine ⟨by omega, fun i hi h => Nat.testBit_lt_two_pow ((Nat.log2_lt ha).1 (by omega)), fun _ => ?_⟩
    rw [show 15 - (15 - a.toNat.log2) = a.toNat.log2 by omega]
    exact Nat.testBit_log2 ha

/-- The 1 bits of a value. -/
def oneBits {w : Nat} (v : BitVec w) : Nat := ((List.range w).filter fun i => v.getLsbD i).length

theorem popCount_toNat {w : Nat} (v : BitVec w) : popCount w v.toNat = oneBits v := by
  simp only [popCount, bitN_toNat, oneBits]

/-! CRC steps (R210) -/

theorem b2n_bitN (v i : Nat) : b2n (bitN v i) = (v >>> i) % 2 := by
  obtain h | h : (v >>> i) % 2 = 0 ∨ (v >>> i) % 2 = 1 := by omega
  all_goals rw [bitN, h]; rfl

theorem crcBit_toNat (p s : BitVec 32) (b : Bool) :
    crcBit 32 p.toNat s.toNat (b2n b) = (if s.msb != b then (s <<< 1) ^^^ p else s <<< 1).toNat := by
  have hshift : s.toNat * 2 % 2 ^ 32 = (s <<< 1).toNat := by rw [BitVec.toNat_shiftLeft, Nat.shiftLeft_eq, pow_one]
  have hfb : (b2n s.msb + b2n b) % 2 = 1 ↔ (s.msb != b) = true := by cases s.msb <;> cases b <;> decide
  have htop : s.toNat >>> (32 - 1) = b2n s.msb := by
    have := s.isLt
    rw [BitVec.msb_eq_getLsbD_last, ← bitN_toNat, b2n_bitN, Nat.mod_eq_of_lt]
    omega
  simp only [crcBit, htop, hshift, hfb, apply_ite BitVec.toNat, BitVec.toNat_xor]

/-- The low `k` bits of a number from the top down, as CRC steps take them. -/
def bitsFrom (k v : Nat) : List Bool := (List.range k).map fun i => bitN v (k - 1 - i)

theorem bitsFrom_succ (k v : Nat) : bitsFrom (k + 1) v = bitN v k :: bitsFrom k v := by
  rw [bitsFrom, List.range_succ_eq_map, List.map_cons, List.map_map, bitsFrom]
  congr 1
  exact List.map_congr_left fun i _ => by rw [Function.comp_apply, show k + 1 - 1 - (i + 1) = k - 1 - i by omega]

theorem crcBits_toNat (p s : BitVec 32) (k v : Nat) : crcBits 32 p.toNat k v s.toNat = (crcOver p s (bitsFrom k v)).toNat := by
  induction k generalizing s with
  | zero => rfl
  | succ k ih => rw [crcBits, ← b2n_bitN, crcBit_toNat, ih, bitsFrom_succ, crcOver, crcOver, List.foldl_cons]

/-- What CRC steps make of a core: CRCS over the data bits, and Z. -/
theorem crc_eq (x : Core) (k v : Nat) :
    x.crc k v = ({ x with crcs := crcOver x.crcp x.crcs (bitsFrom k v) } : Core).flags { z := some (crcOver x.crcp x.crcs (bitsFrom k v) == 0) } := by
  simp only [Core.crc, crcSteps, crcBits_toNat, BitVec.ofNat_toNat, BitVec.setWidth_eq]
  rw [← toNat_beq]
  rfl

/-! The instructions -/

section
variable {s : State} {c : CoreId} {cond : Cond} {base : List Word} {a : Word} {d : BitVec 32} (h : Fires s c cond 1)
include h

/-- BTST, BSET, BCLR and BINV, in the order of their operand bytes: T takes the old bit. -/
theorem computes_bitOp1 (n : Nat) (hh : Holds (s.core c.val) (base ++ [a])) :
    let does (op : Nat) (r : Word) : Prop := Computes s (issue (bitOp1 op n) c cond s) c 1 1 (base ++ [r]) { t := some (a.getLsbD n) }
    does 0 a ∧ does 1 (a ||| BitVec.twoPow 16 n) ∧ does 2 (a &&& ~~~(BitVec.twoPow 16 n)) ∧ does 3 (a ^^^ BitVec.twoPow 16 n) := by
  have ha := holds_arg_top hh
  refine ⟨computes_of_flags_in_place h hh rfl rfl le_rfl rfl ?_, computes_of_flags_in_place h hh rfl rfl le_rfl rfl ?_,
    computes_of_flags_in_place h hh rfl rfl le_rfl rfl ?_, computes_of_flags_in_place h hh rfl rfl le_rfl rfl ?_⟩
  · simp only [issuing_arg, ha, wd_toNat, bitN_toNat]
  · simp only [issuing_arg, ha, wd_setBitsN_one, bitN_toNat]
  · simp only [issuing_arg, ha, wd_setBitsN_zero, bitN_toNat]
  · simp only [issuing_arg, ha, wd_setBitsN_not]
    simp only [bitN_toNat]

theorem computes_brev (n : Nat) (hh : Holds (s.core c.val) (base ++ [a])) :
    let r := wd (a.toNat / 2 ^ (n + 1) * 2 ^ (n + 1) + revLow (n + 1) (a.toNat % 2 ^ (n + 1)))
    Computes s (issue (brevOp n) c cond s) c 1 1 (base ++ [r]) (resultFlags r) :=
  computes_of_flags_in_place h hh rfl rfl le_rfl rfl
    (by simp only [issuing_arg, holds_arg_top hh, zn_eq_resultFlags (by decide : 0 < 16)]; rfl)

theorem computes_popc (hh : Holds (s.core c.val) (base ++ [a])) :
    let r := BitVec.ofNat 16 (oneBits a)
    Computes s (issue popcOp c cond s) c 1 1 (base ++ [r]) (resultFlags r) :=
  computes_of_flags_in_place h hh rfl rfl le_rfl rfl
    (by simp only [issuing_arg, holds_arg_top hh, popCount_toNat, zn_eq_resultFlags (by decide : 0 < 16)]; rfl)

theorem computes_clz (hh : Holds (s.core c.val) (base ++ [a])) :
    let r := BitVec.ofNat 16 (leadingZeros a)
    Computes s (issue clzOp c cond s) c 1 1 (base ++ [r]) (resultFlags r) :=
  computes_of_flags_in_place h hh rfl rfl le_rfl rfl
    (by simp only [issuing_arg, holds_arg_top hh, zn_eq_resultFlags (by decide : 0 < 16)]; rfl)

theorem computes_par (hh : Holds (s.core c.val) (base ++ [a])) :
    Computes s (issue parOp c cond s) c 1 1 (base ++ [a]) { t := some (decide (oneBits a % 2 = 1)) } :=
  computes_of_flags_in_place h hh rfl rfl le_rfl rfl (by simp only [issuing_arg, holds_arg_top hh, wd_toNat, popCount_toNat, beq_eq_decide])

theorem computes_pard (hh : Holds (s.core c.val) (base ++ valueWords true d)) :
    Computes s (issue pardOp c cond s) c 1 1 (base ++ valueWords true d) { t := some (decide (oneBits d % 2 = 1)) } := by
  have hd : (s.core c.val).arg32 2 0 = d.toNat := holds_argW_top hh
  exact computes_of_flags_in_place h hh rfl rfl le_rfl rfl (by simp only [issuing_arg32, hd, popCount_toNat, beq_eq_decide]; rfl)

omit h

/-- What CRC steps over the bits of their entries leave: the entries gone, CRCS and Z. -/
theorem leaves_crc {o : CoreOp} {ins : List Word} {v k : Nat} (bits : List Bool) (h : Fires s c cond o.len) (hh : Holds (s.core c.val) (base ++ ins))
    (hn : ins.length = o.need) (hl : o.leave = 0) (ho : ∃ f, o.act = .core f ∧ f (s.core c.val).issuing = .ok (((s.core c.val).issuing.crc k v).replace o.need []))
    (hbits : bitsFrom k v = bits) :
    let x := s.core c.val
    Leaves s (issue o c cond s) c o.len o.count { x with crcs := crcOver x.crcp x.crcs bits } base { z := some (crcOver x.crcp x.crcs bits == 0) } := by
  obtain ⟨f, hact, hf⟩ := ho
  have hroom : Room (s.core c.val) (base.length + o.leave) := room_of_holds hh (by simp [hl])
  rw [crc_eq, hbits] at hf
  have := leaves_of_core (dec := plain) h rfl hh hn hl.symm hroom (out := []) (k := { s.core c.val with crcs := crcOver (s.core c.val).crcp (s.core c.val).crcs bits })
    rfl rfl rfl rfl rfl ⟨f, hact, hf⟩
  rwa [List.append_nil] at this

theorem bitsFrom_toNat {w : Nat} (k : Nat) (v : BitVec w) : bitsFrom k v.toNat = bitsDown k v := by
  simp only [bitsFrom, bitsDown, bitN_toNat]

/-- CRC8 takes the low byte of its entry. -/
theorem bitsFrom_byte (v : Word) : bitsFrom 8 (v.toNat % 256) = bitsDown 8 v := by
  refine List.map_congr_left fun i _ => ?_
  rw [bitN_eq_testBit, show 256 = 2 ^ 8 from rfl, Nat.testBit_mod_two_pow, decide_eq_true (by omega), Bool.true_and]
  rfl

/-- CRCI n takes bits 15 down to 15 − n of imm16. -/
theorem bitsFrom_shiftRight (v : Word) {n : Nat} (hn : n < 16) : bitsFrom (n + 1) (v.toNat >>> (15 - n)) = (bitsDown 16 v).take (n + 1) := by
  rw [bitsDown, ← List.map_take, List.take_range, Nat.min_eq_left hn]
  refine List.map_congr_left fun i hi => ?_
  rw [List.mem_range] at hi
  rw [bitN_eq_testBit, Nat.testBit_shiftRight, show 15 - n + (n + 1 - 1 - i) = 16 - 1 - i by omega]
  rfl

theorem leaves_crcOps (h : Fires s c cond 1) :
    let x := s.core c.val
    let runs (n : Nat) (bits : List Bool) : Prop :=
      Leaves s (issue (crcOp n) c cond s) c 1 1 { x with crcs := crcOver x.crcp x.crcs bits } base { z := some (crcOver x.crcp x.crcs bits == 0) }
    (Holds x (base ++ [a]) → runs 0 (bitsDown 8 a) ∧ runs 1 (bitsDown 16 a)) ∧ (Holds x (base ++ valueWords true d) → runs 2 (bitsDown 32 d)) := by
  refine ⟨fun hh => ?_, fun hh => ?_⟩
  · have ha := holds_arg_top hh
    exact ⟨leaves_crc _ h hh rfl rfl ⟨_, rfl, by simp only [issuing_arg, ha]; rfl⟩ (bitsFrom_byte a),
      leaves_crc _ h hh rfl rfl ⟨_, rfl, by simp only [issuing_arg, ha]; rfl⟩ (bitsFrom_toNat 16 a)⟩
  · have hd : (s.core c.val).arg32 2 0 = d.toNat := holds_argW_top hh
    exact leaves_crc _ h hh rfl rfl ⟨_, rfl, by simp only [issuing_arg32, hd]; rfl⟩ (bitsFrom_toNat 32 d)

theorem leaves_crci {imm : Word} {n : Nat} (hn : n < 16) (h : Fires s c cond 2) (hh : Holds (s.core c.val) base) :
    let x := s.core c.val
    let bits := (bitsDown 16 imm).take (n + 1)
    Leaves s (issue (crciOp n imm.toNat) c cond s) c 2 2 { x with crcs := crcOver x.crcp x.crcs bits } base { z := some (crcOver x.crcp x.crcs bits == 0) } :=
  leaves_crc (o := crciOp n imm.toNat) (ins := []) _ h (by rwa [List.append_nil]) rfl rfl ⟨_, rfl, rfl⟩ (bitsFrom_shiftRight imm hn)

end

/-- Settles O17: each instruction by what it does to single bits, and the CRC instructions by their data bits. -/
theorem bitAndCrcInstructionsFollowTable88 : Obligations.BitAndCrcInstructionsFollowTable88 := by
  refine ⟨fun s c cond base a d n h => ⟨fun hh => ?_, fun hh => ?_⟩, fun s c cond base a imm d n => ?_⟩
  · obtain ⟨hbtst, hbset, hbclr, hbinv⟩ := computes_bitOp1 h n.val hh
    obtain ⟨hle, hzeros, hone⟩ := leadingZeros_spec a
    exact ⟨hbtst, hbset, hbclr, hbinv, ⟨_, fun i hi => wd_brev a n.val hi, computes_brev h n.val hh⟩, computes_popc h hh,
      ⟨_, hle, hzeros, hone, computes_clz h hh⟩, computes_par h hh⟩
  · exact computes_pard h hh
  · exact ⟨fun h => (leaves_crcOps (d := d) h).1, fun h => (leaves_crcOps (a := a) h).2, leaves_crci n.isLt⟩

end Sys2Proof.Machine
end
